-- ==== Sys2Proof/Word.lean ====
section
/-! DEFINITION. The words that cross the 648's links, and its plant time. -/

namespace Sys2Proof

/-- A byte of the control link, the drive link, the lighting line or the flash (R185). -/
abbrev Byte := BitVec 8

/-- A two-byte field of the control link (R190). -/
abbrev Half := BitVec 16

/-- A four-byte field of the control link (R190). -/
abbrev Quad := BitVec 32

/-- Plant time: an unsigned 32-bit count of milliseconds that wraps (R1). -/
abbrev PlantTime := BitVec 32

end Sys2Proof
end

