-- ==== Sys2Proof/Machine/Table.lean ====
section
/-! DEFINITION. A table of exactly n like records (channels, pumps, fixtures, lines ...), held as a list with its length. -/

namespace Sys2Proof.Machine

/-- Exactly n records, the first with number 0 (00_scope.md, Numbering). -/
structure Table (α : Type) (n : Nat) where
  cells : List α
  size : cells.length = n
deriving DecidableEq, Repr

/-- n copies of one record. -/
def Table.fill {α : Type} (n : Nat) (a : α) : Table α n := ⟨List.replicate n a, by simp⟩

/-- The record with number i. -/
def Table.get {α : Type} {n : Nat} (t : Table α n) (i : Fin n) : α :=
  t.cells[i.val]'(by rw [t.size]; exact i.isLt)

/-- The table with the record numbered i replaced. -/
def Table.set {α : Type} {n : Nat} (t : Table α n) (i : Fin n) (a : α) : Table α n :=
  ⟨t.cells.set i.val a, by rw [List.length_set]; exact t.size⟩

/-- The table with the record numbered i changed by f. -/
def Table.modify {α : Type} {n : Nat} (t : Table α n) (i : Fin n) (f : α → α) : Table α n :=
  t.set i (f (t.get i))

/-- A list's images under f, which is given each place's number, counted from k. -/
def mapFrom {α β : Type} (f : Nat → α → β) : Nat → List α → List β
  | _, [] => []
  | k, a :: as => f k a :: mapFrom f (k + 1) as

theorem mapFrom_length {α β : Type} (f : Nat → α → β) (as : List α) (k : Nat) :
    (mapFrom f k as).length = as.length := by
  induction as generalizing k with
  | nil => rfl
  | cons a as ih => simp [mapFrom, ih]

/-- Every record replaced by its image under f, which is given the record's number. -/
def Table.mapIdx {α β : Type} {n : Nat} (f : Nat → α → β) (t : Table α n) : Table β n :=
  ⟨mapFrom f 0 t.cells, by rw [mapFrom_length]; exact t.size⟩

/-- Every record replaced by its image under f. -/
def Table.map {α β : Type} {n : Nat} (f : α → β) (t : Table α n) : Table β n :=
  ⟨t.cells.map f, by rw [List.length_map]; exact t.size⟩

/-- Two tables of one size read place by place. -/
def Table.zipWith {α β γ : Type} {n : Nat} (f : α → β → γ) (s : Table α n) (t : Table β n) : Table γ n :=
  ⟨List.zipWith f s.cells t.cells, by rw [List.length_zipWith, s.size, t.size, Nat.min_self]⟩

end Sys2Proof.Machine
end

