-- ==== Sys2Proof/Config.lean ====
section
/-! DEFINITION. The constants the 648 fixes, and the values its manual leaves open (opaque: nothing is known of them). -/

namespace Sys2Proof

/-- Free choice of an order the manual leaves open inside one event (R48, R171); the argument is the
state's counter of choices taken (DESIGN CHOICE, log 10 and log 11). -/
opaque Config.choice : Nat → Nat

/-- Free bytes of the stored image's marker, length and contents as the n-th save writes them: the manual gives
their meaning and not their layout (R197; DESIGN CHOICE, log 8). -/
opaque Config.imageBody : Nat → List Byte

/-- Free bytes that fill the last page the n-th save writes, by address: the manual gives no byte past the image's CRC-32
(R198; DESIGN CHOICE, log 8). -/
opaque Config.imagePadding : Nat → Nat → Byte

/-- Free bytes left by an erase or a write that failed, by free counter and address
(R159; DESIGN CHOICE, log 9). -/
opaque Config.failedFlash : Nat → Nat → Byte

/-- Free value that LIGHTING_READ reports as the envelope of the latest frame when that frame read none, by frame count:
a frame in SAFE does not read the envelope (R137, R140; DESIGN CHOICE, log 36). -/
opaque Config.unreadEnvelope : Nat → Byte

/-- The first flash address above the stored image's MiB (R141, R197). -/
def Config.imageEnd : Nat := 1048576

/-- The number of bytes of the flash's address space (00_scope.md, R141, R159). -/
def Config.flashEnd : Nat := 1073741824

/-- What a byte of flash that nothing has written reads as: erased (DESIGN CHOICE, log 7). -/
def Config.flashBlank : Byte := 0xFF#8

/-- The position ceiling (R2, R48). -/
def Config.ceiling : Int := 2000000000

/-- Frames of one slot (R143). -/
def Config.slotFrames : Nat := 512

/-- The most entries the issue queue holds (R55). -/
def Config.queueMax : Nat := 256

/-- The number of cue records the store holds (R19). -/
def Config.storeMax : Nat := 4096

/-- The reader's look-ahead in milliseconds (R51). -/
def Config.lookAhead : Int := 4000

end Sys2Proof
end

