-- ==== Sys2Proof/Syntax.lean ====
section
/-! DEFINITION. The commands of the 648: one constructor of Instr for each row of the opcode table.
A request carries its tag and its fields in the order in which its owning rule lists them, at the widths of R190;
codes are raw, since the owner judges them. An event carries what the plant decides about it (log 32, log 33). -/

namespace Sys2Proof

/-- The control link's speed, chosen by the strap pin (R199 and the opening of the control link chapter). -/
inductive Baud where
  | b115200
  | b921600
deriving DecidableEq, Repr

/-- The two manifolds (00_scope.md, Numbering). -/
inductive Manifold where
  | a
  | b
deriving DecidableEq, Repr

/-- The fields of SHOW_OPEN (R29, R18). -/
structure ShowOpenArgs where
  number : Byte
  track : Byte
  preRoll : Half
  endFade : Half
  effects : Half
  source : Byte
deriving DecidableEq, Repr

/-- The fields of CHANNEL_CONFIG (R68, R67). -/
structure ChannelArgs where
  channel : Byte
  manifold : Byte
  zone : Byte
  type : Byte
  level : Byte
  kn : Half
  curve : List Half
  switchedFlow : Half
  lead : Half
  normalSlew : Half
  tripSlew : Half
deriving DecidableEq, Repr

/-- The fields of JET_GROUP_CONFIG (R69). -/
structure JetGroupArgs where
  group : Byte
  members : BitVec 48
  lead : Half
deriving DecidableEq, Repr

/-- The fields of JET_SET (R74). -/
structure JetSetArgs where
  index : Byte
  group : Byte
  height : Half
  fade : Half
  level : Byte
deriving DecidableEq, Repr

/-- The fields of PUMP_CONFIG (R89, R88). -/
structure PumpArgs where
  pump : Byte
  manifold : Byte
  address : Byte
  ratedFlow : Half
  minSpeed : Half
  ramp : Half
  lead : Half
  startTimeout : Byte
deriving DecidableEq, Repr

/-- The fields of PUMP_SET (R92). -/
structure PumpSetArgs where
  index : Byte
  group : Byte
  speed : Half
  ramp : Half
deriving DecidableEq, Repr

/-- The fields of WIND_CONFIG for one zone (R121, R120). -/
structure ZoneArgs where
  factors : List Half
  drop : Half
  recover : Half
deriving DecidableEq, Repr

/-- The fields of WIND_CONFIG (R121). -/
structure WindArgs where
  k : Half
  thresholds : List Half
  hysteresis : Half
  calmHold : Half
  zones : List ZoneArgs
deriving DecidableEq, Repr

/-- The fields of FIXTURE_CONFIG (R124, R123). -/
structure FixtureArgs where
  fixture : Byte
  base : Half
  kind : Byte
  bound : Byte
  lead : Half
deriving DecidableEq, Repr

/-- The fields of FIXTURE_GROUP_CONFIG (R125). -/
structure FixtureGroupArgs where
  group : Byte
  members : BitVec 96
  lead : Half
deriving DecidableEq, Repr

/-- The fields of LIGHTING_CONFIG (R126). -/
structure LightingArgs where
  dry : Byte
  r : Byte
  g : Byte
  b : Byte
  w : Byte
  idleMaster : Byte
  safeWhite : Byte
  period : Half
deriving DecidableEq, Repr

/-- The fields of FIXTURE_SET (R130). -/
structure FixtureSetArgs where
  index : Byte
  group : Byte
  r : Byte
  g : Byte
  b : Byte
  w : Byte
  fade : Half
  master : Byte
  mode : Byte
deriving DecidableEq, Repr

/-- The fields of TRACK_DEFINE (R141). -/
structure TrackArgs where
  track : Byte
  start : Quad
  frames : Quad
  format : Byte
deriving DecidableEq, Repr

/-- One setting of INPUT_CONFIG (R164, R161). -/
structure SettingArgs where
  condition : Byte
  source : Byte
  sourceArg : Byte
  invert : Byte
  prescale : Byte
  window : Byte
  threshold : Byte
  role : Byte
deriving DecidableEq, Repr

/-- The fields of REACTION_CONFIG (R170, R165). -/
structure ReactionArgs where
  reaction : Byte
  use : Byte
  source : Byte
  sourceArg : Byte
  trigger : Byte
  release : Byte
  kind : Byte
  arg1 : Byte
  arg2 : Byte
deriving DecidableEq, Repr

/-- The fields of OUTPUT_CONFIG (R181). -/
structure OutputArgs where
  line : Byte
  source : Byte
  sourceArg : Byte
  invert : Byte
  safe : Byte
deriving DecidableEq, Repr

/-- The commands of the 648, one constructor for each row of spec/opcode_table.json. -/
inductive Instr where
  | reset (tag : Byte)
  | resetPin
  | resetSequence (baud : Baud) (lines : BitVec 32)
  | noticeMask (tag mask : Byte)
  | saveImage (tag : Byte)
  | clockConfig (tag : Byte) (timeout : Half)
  | clockRead (tag : Byte)
  | showOpen (tag : Byte) (args : ShowOpenArgs)
  | showAppend (tag : Byte) (payload : List Byte)
  | showSeal (tag number : Byte)
  | showErase (tag number : Byte)
  | showInfo (tag number : Byte)
  | showStart (tag number : Byte)
  | showPause (tag : Byte)
  | showResume (tag : Byte)
  | showStop (tag : Byte)
  | showAbort (tag : Byte)
  | flagsSet (tag : Byte) (mask : Half)
  | flagsClear (tag : Byte) (mask : Half)
  | sequencerRead (tag : Byte)
  | channelConfig (tag : Byte) (args : ChannelArgs)
  | jetGroupConfig (tag : Byte) (args : JetGroupArgs)
  | jetSet (tag : Byte) (args : JetSetArgs)
  | channelRead (tag channel : Byte)
  | jetGroupRead (tag group : Byte)
  | pumpConfig (tag : Byte) (args : PumpArgs)
  | pumpSet (tag : Byte) (args : PumpSetArgs)
  | pumpClear (tag pump : Byte)
  | pumpRead (tag pump : Byte)
  | manifoldConfig (tag manifold : Byte) (reserve : Half)
  | manifoldRead (tag manifold : Byte)
  | windConfig (tag : Byte) (args : WindArgs)
  | windBandSet (tag band : Byte)
  | windRead (tag : Byte)
  | fixtureConfig (tag : Byte) (args : FixtureArgs)
  | fixtureGroupConfig (tag : Byte) (args : FixtureGroupArgs)
  | lightingConfig (tag : Byte) (args : LightingArgs)
  | fixtureSet (tag : Byte) (args : FixtureSetArgs)
  | fixtureRead (tag fixture : Byte)
  | fixtureGroupRead (tag group : Byte)
  | lightingRead (tag : Byte)
  | trackDefine (tag : Byte) (args : TrackArgs)
  | trackRead (tag track : Byte)
  | audioConfig (tag : Byte) (gain : Half) (release : Byte)
  | streamRead (tag stream : Byte)
  | flashErase (tag : Byte) (address : Quad)
  | flashWrite (tag : Byte) (address : Quad) (data : List Byte)
  | flashRead (tag : Byte) (address : Quad) (length : Half)
  | flashInterfaceHold
  | flashOperationDone (ok : Bool)
  | flashTimeout
  | inputConfig (tag : Byte) (payload : List Byte)
  | reactionConfig (tag : Byte) (args : ReactionArgs)
  | tripClear (tag reaction : Byte)
  | inputRead (tag : Byte)
  | setPlant (tag code : Byte)
  | outputConfig (tag : Byte) (args : OutputArgs)
  | outputsSet (tag : Byte) (mask : BitVec 64)
  | outputsClear (tag : Byte) (mask : BitVec 64)
  | outputRead (tag : Byte)
  | frameComplete (kind tag : Byte) (payload : List Byte)
  | frameTimeout
  | transmitEnd
  | plantMillisecond
  | stepTimeout
  | manifoldUpdate (m : Manifold)
  | pollSlot
  | driveReply (bytes : List Byte)
  | pollMiss
  | startTimeout (p : Fin 8)
  | gateEnd
  | trimStep
  | lightingFrame
  | outputFrame
  | stopFadeEnd (stream : Fin 4)
  | envelopeEvent
  | refillReadComplete
  | inputSample (lines : BitVec 32)
  | conditionSample (c : Fin 24)
  | pwmPeriod
  | controlLinkByte (byte : Byte)
  | resetPinHeldLow
deriving DecidableEq, Repr

end Sys2Proof
end

