-- ==== Sys2Proof/Machine/Records.lean ====
section
/-! DEFINITION. The records the 648's blocks hold, each with the rule that lists its fields. -/

namespace Sys2Proof.Machine

/-! ### Show Clock -/

/-- Clock states (R3; codes R17). -/
inductive ClockState where
  | stopped
  | locked
  | holdover
deriving DecidableEq, Repr

/-- Clock sources (R3, R18): LOCAL counts plant time, EXTERNAL counts steps. -/
inductive ClockSource where
  | onCrystal
  | external
deriving DecidableEq, Repr

/-- The Show Clock (R1 to R17). -/
structure ShowClock where
  plantTime : PlantTime
  position : Int
  state : ClockState
  source : ClockSource
  stepTimeout : Nat
  armed : Option PlantTime
  markCount : Nat
  lastSnap : Int
  holdoverCount : Nat
deriving DecidableEq, Repr

/-! ### Show Store -/

/-- States of a directory entry (R18). -/
inductive ShowState where
  | empty
  | loading
  | ready
deriving DecidableEq, Repr

/-- A show directory entry (R18). -/
structure ShowEntry where
  state : ShowState
  first : Nat
  count : Nat
  track : Option Nat
  preRoll : Nat
  endFade : Nat
  effects : Nat
  source : ClockSource
deriving DecidableEq, Repr

/-- Condition kinds of a cue (R27). -/
inductive CondKind where
  | always
  | flagSet
  | flagClear
  | take
  | windBelow
  | windAtLeast
  | zoneClear
  | zoneOccupied
deriving DecidableEq, Repr

/-- What a cue or a request says of the level override (R21, R71, R74). -/
inductive LevelCode where
  | keep
  | default
  | level (n : Nat)
deriving DecidableEq, Repr

/-- Fixture modes (R123, R127). -/
inductive LampMode where
  | steady
  | follow
deriving DecidableEq, Repr

/-- The kind of a cue with its payload (R20 to R26); AUDIO stands as its three operations (R24). -/
inductive CueBody where
  | jet (height fade : Nat) (level : LevelCode)
  | pump (speed ramp : Nat)
  | lamp (r g b w fade master : Nat) (mode : LampMode)
  | audioStart (track gain : Nat)
  | audioStop (fade : Nat)
  | audioGain (gain fade : Nat)
  | flag (clear set : Half)
  | mark (number : Nat)
  | loop (target count : Nat)
deriving DecidableEq, Repr

/-- A cue (R20), decoded from its 16 bytes (R191). -/
structure Cue where
  time : Nat
  cond : CondKind
  arg : Nat
  target : Nat
  group : Bool
  body : CueBody
deriving DecidableEq, Repr

/-- The Show Store: the directory and the used records of the cue store (R18, R19; log 16). -/
structure ShowStore where
  dir : Table ShowEntry 16
  cues : List Cue
deriving DecidableEq, Repr

/-! ### Sequencer -/

/-- Sequencer states (R40). -/
inductive SeqState where
  | idle
  | preroll
  | playing
  | paused
  | ending
deriving DecidableEq, Repr

/-- The state a run was paused from (R40). -/
inductive PausedFrom where
  | preroll
  | playing
deriving DecidableEq, Repr

/-- End reasons (R40). -/
inductive EndReason where
  | none
  | natural
  | stopRequest
  | ceiling
  | abortRequest
  | abortReaction
  | safe
deriving DecidableEq, Repr

/-- The fields held for a run (R38). -/
structure RunFields where
  first : Nat
  count : Nat
  track : Option Nat
  preRoll : Nat
  endFade : Nat
  effects : Nat
deriving DecidableEq, Repr

/-- A loop stack entry (R51). -/
structure LoopEntry where
  cue : Nat
  remaining : Nat
deriving DecidableEq, Repr

/-- An issue-queue entry (R52). -/
structure QueueEntry where
  cue : Nat
  nominal : Int
  action : Cue
  issueTime : Int
  late : Bool
deriving DecidableEq, Repr

/-- The Sequencer (R40, R51, R55, R60, R65); the loop stack's top is its first entry. -/
structure Sequencer where
  state : SeqState
  pausedFrom : PausedFrom
  running : Option Nat
  run : RunFields
  endPosition : Int
  endReason : EndReason
  cursor : Nat
  loopOffset : Int
  loopStack : List LoopEntry
  queue : List QueueEntry
  flags : Half
  lateCount : Nat
  skipCount : Nat
  issuedCount : Nat
  lastMark : Option Nat
deriving DecidableEq, Repr

/-! ### Jet Channel Unit -/

/-- A fade of one value (R72; of a gain, R142). `held` stands once the elapsed time has reached the duration (R1). -/
structure Fade where
  start : Nat
  target : Nat
  t0 : PlantTime
  duration : Nat
  held : Bool
deriving DecidableEq, Repr

/-- Channel types (R67). -/
inductive ChannelType where
  | proportional
  | switched
deriving DecidableEq, Repr

/-- A channel's configuration (R67). -/
structure ChannelCfg where
  manifold : Manifold
  zone : Fin 4
  type : ChannelType
  level : Nat
  kn : Nat
  curve : List Nat
  switchedFlow : Nat
  lead : Nat
  normalSlew : Nat
  tripSlew : Nat
deriving DecidableEq, Repr

/-- The hold reasons of a channel (R79). -/
structure HoldReasons where
  zone : Bool
  safe : Bool
  abort : Bool
deriving DecidableEq, Repr

/-- Grant statuses (R81). -/
inductive GrantStatus where
  | idle
  | full
  | short
  | starved
  | excluded
  | held
deriving DecidableEq, Repr

/-- A channel's live record (R70). -/
structure ChannelLive where
  fade : Fade
  override : Option Nat
  abortClose : Bool
  requested : Nat
  effective : Nat
  trimUsed : Nat
  demand : Nat
  hold : HoldReasons
  grant : Nat
  status : GrantStatus
  curveOpening : Nat
  opening : Nat
deriving DecidableEq, Repr

/-- A channel record (R67, R70). -/
structure Channel where
  cfg : ChannelCfg
  live : ChannelLive
deriving DecidableEq, Repr

/-- A jet group (R69); bit i of the member set stands for channel i. -/
structure JetGroup where
  members : BitVec 48
  lead : Nat
deriving DecidableEq, Repr

/-- The Jet Channel Unit (R67 to R70). -/
structure JetUnit where
  channels : Table Channel 48
  groups : Table JetGroup 16
deriving DecidableEq, Repr

/-! ### Pump Controller and Flow Budget Arbiter -/

/-- A pump's configuration (R88); the start timeout is in seconds. -/
structure PumpCfg where
  manifold : Manifold
  address : Nat
  ratedFlow : Nat
  minSpeed : Nat
  ramp : Nat
  lead : Nat
  startTimeout : Nat
deriving DecidableEq, Repr

/-- Pump states (R90). -/
inductive PumpState where
  | stopped
  | starting
  | running
  | stopping
  | faulted
  | locked
deriving DecidableEq, Repr

/-- Results of the latest poll (R90). -/
inductive Exchange where
  | none
  | good
  | faultReply
  | miss
deriving DecidableEq, Repr

/-- Fault codes of a FAULTED pump (R90). -/
inductive FaultCode where
  | linkLost
  | startTimeout
  | drive (code : Nat)
deriving DecidableEq, Repr

/-- A pump's live record (R90). -/
structure PumpLive where
  state : PumpState
  target : Nat
  ramp : Nat
  commanded : Nat
  actual : Nat
  ready : Bool
  running : Bool
  exchange : Exchange
  misses : Nat
  fault : Option FaultCode
  startTime : PlantTime
deriving DecidableEq, Repr

/-- A pump record (R88, R90). -/
structure Pump where
  cfg : PumpCfg
  live : PumpLive
deriving DecidableEq, Repr

/-- The poll cycle of the drive link (R93, R94): the slot that comes next, the pump whose exchange is open, and the
bytes of the last poll request. -/
structure PollState where
  next : Fin 8
  awaiting : Option (Fin 8)
  request : List Byte
deriving DecidableEq, Repr

/-- Outcomes of a level at an allocation (R110). -/
inductive LevelOutcome where
  | full
  | scaled
  | starved
  | empty
deriving DecidableEq, Repr

/-- One level of an allocation summary (R110). -/
structure LevelSummary where
  demand : Nat
  outcome : LevelOutcome
deriving DecidableEq, Repr

/-- The allocation summary of a manifold's last update (R110). -/
structure Summary where
  admitLevel : Nat
  available : Nat
  usable : Nat
  levels : List LevelSummary
  scaled : Option Nat
  granted : Nat
  unallocated : Nat
deriving DecidableEq, Repr

/-- A manifold record (R105, R111). -/
structure ManifoldRec where
  reserve : Nat
  summary : Summary
  lastUpdate : PlantTime
  nextUpdate : PlantTime
deriving DecidableEq, Repr

/-- The Pump Controller and the Flow Budget Arbiter (R88 to R111); manifold A is number 0. -/
structure WaterUnit where
  pumps : Table Pump 8
  poll : PollState
  manifolds : Table ManifoldRec 2
deriving DecidableEq, Repr

/-! ### Wind Governor -/

/-- A zone's trim configuration (R120). -/
structure ZoneCfg where
  factors : List Nat
  drop : Nat
  recover : Nat
deriving DecidableEq, Repr

/-- The Wind Governor's configuration (R121). -/
structure WindCfg where
  k : Nat
  thresholds : List Nat
  hysteresis : Nat
  calmHold : Nat
  zones : Table ZoneCfg 4
deriving DecidableEq, Repr

/-- A zone's trim record, live part (R120). -/
structure ZoneTrim where
  target : Nat
  sourceBand : Nat
  applied : Nat
deriving DecidableEq, Repr

/-- The last three gate speeds, newest first (R112). -/
structure SpeedHistory where
  newest : Nat
  middle : Nat
  oldest : Nat
deriving DecidableEq, Repr

/-- The Wind Governor (R112, R120). The mode is read off the conditions' roles (R117). -/
structure WindGov where
  cfg : WindCfg
  manualBand : Nat
  gateCount : Nat
  gateStart : PlantTime
  history : SpeedHistory
  lastAverage : Nat
  band : Nat
  calm : Nat
  bandChanges : Nat
  zones : Table ZoneTrim 4
  nextTrim : PlantTime
deriving DecidableEq, Repr

/-! ### Lighting Unit -/

/-- Four components R, G, B, W (R123, R127). -/
structure Colour where
  r : Nat
  g : Nat
  b : Nat
  w : Nat
deriving DecidableEq, Repr

/-- Fixture kinds (R123). -/
inductive FixtureKind where
  | basin
  | jet
  | deck
deriving DecidableEq, Repr

/-- A fixture's configuration (R123). -/
structure FixtureCfg where
  base : Nat
  kind : FixtureKind
  bound : Option (Fin 48)
  lead : Nat
deriving DecidableEq, Repr

/-- A colour fade (R128); `held` as in Fade (R1). -/
structure ColourFade where
  start : Colour
  target : Colour
  t0 : PlantTime
  duration : Nat
  held : Bool
deriving DecidableEq, Repr

/-- What shaped a fixture's last output (R127). -/
structure LampLimits where
  dry : Bool
  limit : Bool
  safe : Bool
deriving DecidableEq, Repr

/-- A fixture's live record (R127). -/
structure FixtureLive where
  fade : ColourFade
  master : Nat
  mode : LampMode
  intensity : Nat
  limits : LampLimits
  output : Colour
deriving DecidableEq, Repr

/-- A fixture record (R123, R127). -/
structure Fixture where
  cfg : FixtureCfg
  live : FixtureLive
deriving DecidableEq, Repr

/-- A fixture group (R125); bit i of the member set stands for fixture i. -/
structure FixtureGroup where
  members : BitVec 96
  lead : Nat
deriving DecidableEq, Repr

/-- The lighting settings (R126). -/
structure LightSettings where
  dryLimit : Nat
  idleColour : Colour
  idleMaster : Nat
  safeWhite : Nat
  period : Nat
deriving DecidableEq, Repr

/-- The Lighting Unit (R123 to R140); `line` holds the start code and slots of the frame sent last
(R138), and `lastEnvelope` the envelope that the latest frame read, if it read one (R137, R140; log 36). -/
structure LightUnit where
  fixtures : Table Fixture 96
  groups : Table FixtureGroup 16
  settings : LightSettings
  nextFrame : PlantTime
  frameCount : Quad
  lastFrame : PlantTime
  lastSlots : Nat
  lastEnvelope : Option Nat
  line : List Byte
deriving DecidableEq, Repr

/-! ### Playback Unit -/

/-- Track formats (R141). -/
inductive TrackFormat where
  | stereo16
  | mono16
deriving DecidableEq, Repr

/-- A defined track (R141). -/
structure Track where
  start : Nat
  frames : Nat
  format : TrackFormat
deriving DecidableEq, Repr

/-- Stream states (R142). -/
inductive StreamState where
  | idle
  | loading
  | playing
  | paused
  | stopping
deriving DecidableEq, Repr

/-- The state a stream was paused from (R142). -/
inductive StreamPausedFrom where
  | playing
  | stopping
deriving DecidableEq, Repr

/-- A stereo frame (R143). -/
structure AudioFrame where
  left : Int
  right : Int
deriving DecidableEq, Repr

/-- A stream record (R142). `ring` holds the filled slots, the head first, so that its length is the filled slot count
(R143). The model's own fields: `headPos`, the play point's place in the head slot; `boundary`, whether the next frame
needed is at a slot boundary (R148); `silencePasses`, whether the silence now given stands for passed-over frames
(R149) or leads to a resync's jump target (R154) (DEDUCED, log 18). -/
structure Stream where
  state : StreamState
  pausedFrom : StreamPausedFrom
  track : Nat
  format : TrackFormat
  startPosition : Int
  nextAddress : Nat
  leftToRead : Nat
  leftToPlay : Nat
  framesOutput : Nat
  gain : Fade
  share : Nat
  ring : List (List AudioFrame)
  headPos : Nat
  boundary : Bool
  silenceLeft : Nat
  silencePasses : Bool
  underruns : Nat
deriving DecidableEq, Repr

/-- A refill read in progress (R144). -/
structure RefillRead where
  stream : Fin 4
  address : Nat
  frames : Nat
  format : TrackFormat
  discarded : Bool
deriving DecidableEq, Repr

/-- One bit clock of the serial audio output: the word clock, HIGH while the right sample is sent, and the data bit taken
on its rising edge (R152). -/
structure BitClock where
  word : Bool
  data : Bool
deriving DecidableEq, Repr

/-- The Playback Unit (R141 to R158); `blockCount` and `blockPeak` are the block of 512 output frames under way
(R153), and `serial` the 32 bit clocks of the serial frame that the latest output frame event began (R152; log 43). -/
structure AudioUnit where
  tracks : Table (Option Track) 64
  streams : Table Stream 4
  read : Option RefillRead
  masterGain : Nat
  release : Nat
  envelope : Nat
  clip : Bool
  outLeft : Int
  outRight : Int
  serial : List BitClock
  blockCount : Nat
  blockPeak : Nat
deriving DecidableEq, Repr

/-! ### Trip Unit -/

/-- Sources of a logical condition (R161). -/
inductive LineSource where
  | line (i : Fin 32)
  | constLow
  | constHigh
deriving DecidableEq, Repr

/-- Roles of a logical condition (R161). -/
inductive Role where
  | general
  | clockStep
  | clockMark
  | windPulse
deriving DecidableEq, Repr

/-- A condition's configuration (R161). -/
structure ConditionCfg where
  source : LineSource
  invert : Bool
  prescale : Nat
  window : Nat
  threshold : Nat
  role : Role
deriving DecidableEq, Repr

/-- A logical condition (R161). Levels are true for HIGH. `due` is the model's own mark that the prescale count has
run out and the condition's sample is to be taken (R162; DESIGN CHOICE, log 25). -/
structure Condition where
  cfg : ConditionCfg
  prescaleCount : Nat
  due : Bool
  history : List Bool
  filtered : Bool
deriving DecidableEq, Repr

/-- Sources of a reaction (R165). -/
inductive ReactionSource where
  | condition (c : Fin 24)
  | bandAtLeast (b : Nat)
  | anyPumpFaulted
  | driveLinkLost
  | clockHoldover
deriving DecidableEq, Repr

/-- Triggers of a reaction (R165). -/
inductive Trigger where
  | high
  | low
  | rise
  | fall
  | any
deriving DecidableEq, Repr

/-- Releases of a reaction (R165). -/
inductive Release where
  | host
  | hostWhenInactive
deriving DecidableEq, Repr

/-- Kinds of lamp a LAMP_LIMIT names (R165). -/
inductive LampKind where
  | only (k : FixtureKind)
  | all
deriving DecidableEq, Repr

/-- Kinds of reaction with their arguments (R165). -/
inductive ReactionKind where
  | noticeOnly
  | flagSet (n : Fin 16)
  | showPause
  | showAbort
  | plantSafe
  | zoneHold (z : Fin 4)
  | admitLimit (m : Manifold) (level : Nat)
  | lampLimit (k : LampKind) (value : Nat)
  | pumpLock (m : Manifold)
deriving DecidableEq, Repr

/-- A reaction's configuration (R165); `inUse` is false for UNUSED. -/
structure ReactionCfg where
  inUse : Bool
  source : ReactionSource
  trigger : Trigger
  release : Release
  kind : ReactionKind
deriving DecidableEq, Repr

/-- A reaction (R165); its active state is derived (R166, R167). -/
structure Reaction where
  cfg : ReactionCfg
  latch : Bool
deriving DecidableEq, Repr

/-- The Trip Unit (R160 to R165); bit i of `samples` is line i's latest sample. -/
structure TripUnit where
  samples : BitVec 32
  conditions : Table Condition 24
  reactions : Table Reaction 32
deriving DecidableEq, Repr

/-! ### Output Matrix -/

/-- Plant modes (R176). -/
inductive PlantMode where
  | safe
  | live
deriving DecidableEq, Repr

/-- Sources of an output line (R181). -/
inductive OutputSource where
  | channelOpening (c : Fin 48)
  | pumpPermit (p : Fin 8)
  | plantLive
  | showActive
  | tripAny
  | flag (n : Fin 16)
  | condition (c : Fin 24)
  | hostLevel
  | constLow
  | constHigh
deriving DecidableEq, Repr

/-- An output line's configuration (R181). -/
structure OutputCfg where
  source : OutputSource
  invert : Bool
  safeLevel : Bool
deriving DecidableEq, Repr

/-- The Output Matrix (R176, R181, R183, R184): `duty` holds the openings taken up at the last period start and
`pwmOn` whether a period has started since the mode became LIVE. -/
structure OutputUnit where
  mode : PlantMode
  lines : Table OutputCfg 64
  host : BitVec 64
  duty : Table Nat 48
  pwmOn : Bool
deriving DecidableEq, Repr

/-! ### Control Link Port -/

/-- Causes of a SHOW notice (R64). -/
inductive ShowCause where
  | state
  | mark
deriving DecidableEq, Repr

/-- Causes of a CLOCK notice (R15). -/
inductive ClockCause where
  | holdover
  | snap
deriving DecidableEq, Repr

/-- Causes of a WIND notice (R119). -/
inductive WindCause where
  | rise
  | fall
  | mode
  | manual
deriving DecidableEq, Repr

/-- Causes of an AUDIO notice (R156). -/
inductive AudioCause where
  | underrun
  | resync
  | noTrack
deriving DecidableEq, Repr

/-- Notices with their details, in the order of R195: TRIP (R174), PUMP (R99), SHOW (R64), CLOCK (R15), WIND (R119),
AUDIO (R156), LATE (R52), START (R199). -/
inductive Notice where
  | trip (reaction : Nat) (kind : ReactionKind) (source : ReactionSource) (trigger : Trigger) (level : Bool)
      (time : PlantTime) (position : Int)
  | pump (pump : Nat) (code : FaultCode) (before : PumpState) (actual : Nat) (time : PlantTime)
  | run (cause : ShowCause) (number : Option Nat) (previous new : SeqState) (reason : EndReason) (position : Int)
      (mark : Nat)
  | clock (cause : ClockCause) (amount : Int) (position : Int) (time : PlantTime)
  | wind (cause : WindCause) (old new average : Nat) (time : PlantTime)
  | audio (cause : AudioCause) (stream track output underruns : Nat) (error : Int) (position : Int)
      (time : PlantTime)
  | late (cue : Nat) (nominal position lateness : Int)
  | startUp (image : Bool)
deriving DecidableEq, Repr

/-- An entry of the pending set (R194). -/
structure NoticeEntry where
  pending : Bool
  count : Nat
  detail : Option Notice
deriving DecidableEq, Repr

/-- A reply of the reply list (R189, R194); `thenReset` marks the OK reply of a taken RESET (R199). -/
structure Reply where
  kind : Byte
  tag : Byte
  payload : List Byte
  thenReset : Bool
deriving DecidableEq, Repr

/-- A frame on the transmit line (R185, R195). -/
structure TxFrame where
  bytes : List Byte
  thenReset : Bool
deriving DecidableEq, Repr

/-- The receive side (R186); `assembling` holds the bytes after the start byte, the first first. -/
inductive RxState where
  | hunting
  | assembling (buffer : List Byte)
deriving DecidableEq, Repr

/-- The Control Link Port (R186, R187, R194 to R196, R199). -/
structure LinkPort where
  rx : RxState
  outstanding : Bool
  replies : List Reply
  notices : Table NoticeEntry 8
  mask : Byte
  line : Option TxFrame
  resetTaken : Bool
deriving DecidableEq, Repr

/-! ### Stored image and flash -/

/-- What the stored image holds (R197). -/
structure Image where
  stepTimeout : Nat
  dir : Table ShowEntry 16
  cues : List Cue
  channels : Table ChannelCfg 48
  jetGroups : Table JetGroup 16
  pumps : Table PumpCfg 8
  reserves : Table Nat 2
  wind : WindCfg
  manualBand : Nat
  fixtures : Table FixtureCfg 96
  fixtureGroups : Table FixtureGroup 16
  lighting : LightSettings
  tracks : Table (Option Track) 64
  masterGain : Nat
  release : Nat
  conditions : Table ConditionCfg 24
  reactions : Table ReactionCfg 32
  outputs : Table OutputCfg 64
deriving DecidableEq, Repr

/-- The steps of a save on the flash interface (R198), with the sector or page under way. -/
inductive SavePhase where
  | erasing (sector : Nat)
  | writing (page : Nat)
  | reading
deriving DecidableEq, Repr

/-- The four requests that reply on completion (R159, R187, R198). -/
inductive FlashJob where
  | erase (address : Nat)
  | write (address : Nat) (data : List Byte)
  | read (address length : Nat)
  | save (image : Image) (phase : SavePhase)
deriving DecidableEq, Repr

/-- The flash request or save in progress (R159, R198): waiting for a refill read until `holding`; `started` is the
plant time at which the erase or write under way began. -/
structure FlashOp where
  tag : Byte
  job : FlashJob
  holding : Bool
  started : PlantTime
deriving DecidableEq, Repr

/-- The serial flash: its bytes in canonical form, the stored image's among them (Flash section of Machine/Ops.lean), the
configuration the stored image holds while a valid one stands there, the number of saves begun on the flash, and the
request in progress (R159, R197, R198; log 7, log 8). -/
structure FlashUnit where
  mem : List Host.Cell
  image : Option Image
  saves : Nat
  op : Option FlashOp
deriving DecidableEq, Repr

/-- Where the 648 stands with respect to a reset (R199; log 4). -/
inductive Phase where
  | running
  | heldLow
  | resetting
deriving DecidableEq, Repr

end Sys2Proof.Machine
end

