-- ==== Sys2Proof/Machine/Defaults.lean ====
section
/-! DEFINITION. The factory defaults, and the values each block's records take at a reset from a configuration
(the "After reset" columns of the chapters). -/

namespace Sys2Proof.Machine

/-- An EMPTY directory entry (R18). -/
def ShowEntry.blank : ShowEntry :=
  { state := .empty, first := 0, count := 0, track := none, preRoll := 0, endFade := 0, effects := 0,
    source := .onCrystal }

/-- A channel's factory configuration (R67). -/
def ChannelCfg.factory : ChannelCfg :=
  { manifold := .a, zone := 0, type := .proportional, level := 0, kn := 0, curve := List.replicate 9 0,
    switchedFlow := 0, lead := 0, normalSlew := 1000, tripSlew := 1000 }

/-- A pump's factory configuration (R88). -/
def PumpCfg.factory : PumpCfg :=
  { manifold := .a, address := 0, ratedFlow := 0, minSpeed := 0, ramp := 10000, lead := 0, startTimeout := 10 }

/-- The Wind Governor's factory configuration (R121). -/
def WindCfg.factory : WindCfg :=
  { k := 1000, thresholds := [40, 70, 100, 130, 160, 200, 250], hysteresis := 10, calmHold := 60,
    zones := Table.fill 4 { factors := List.replicate 8 256, drop := 16, recover := 4 } }

/-- A fixture's factory configuration (R123). -/
def FixtureCfg.factory : FixtureCfg := { base := 0, kind := .basin, bound := none, lead := 0 }

/-- The factory lighting settings (R126). -/
def LightSettings.factory : LightSettings :=
  { dryLimit := 26, idleColour := ⟨0, 0, 0, 51⟩, idleMaster := 255, safeWhite := 77, period := 30 }

/-- A condition's factory configuration (R161). -/
def ConditionCfg.factory : ConditionCfg :=
  { source := .constLow, invert := false, prescale := 0, window := 0, threshold := 1, role := .general }

/-- An UNUSED reaction (R165). Its other fields: DESIGN CHOICE (log 29). -/
def ReactionCfg.factory : ReactionCfg :=
  { inUse := false, source := .condition 0, trigger := .high, release := .host, kind := .noticeOnly }

/-- An output line's factory configuration (R181). -/
def OutputCfg.factory : OutputCfg := { source := .constLow, invert := false, safeLevel := false }

/-- The configuration that stands when factory defaults apply (R16, R39, R67, R69, R88, R105, R121, R123, R125, R126,
R141, R157, R161, R165, R181). -/
def Image.factory : Image :=
  { stepTimeout := 5, dir := Table.fill 16 ShowEntry.blank, cues := [],
    channels := Table.fill 48 ChannelCfg.factory, jetGroups := Table.fill 16 ⟨0, 0⟩,
    pumps := Table.fill 8 PumpCfg.factory, reserves := Table.fill 2 0,
    wind := WindCfg.factory, manualBand := 0,
    fixtures := Table.fill 96 FixtureCfg.factory, fixtureGroups := Table.fill 16 ⟨0, 0⟩,
    lighting := LightSettings.factory, tracks := Table.fill 64 none, masterGain := 4096, release := 8,
    conditions := Table.fill 24 ConditionCfg.factory, reactions := Table.fill 32 ReactionCfg.factory,
    outputs := Table.fill 64 OutputCfg.factory }

/-- A fade standing at 0 (R70, R142). -/
def Fade.zero : Fade := { start := 0, target := 0, t0 := 0, duration := 0, held := false }

/-- Black (R127). -/
def Colour.black : Colour := ⟨0, 0, 0, 0⟩

/-- The Show Clock after a reset, at plant time `now` (R2, R3, R16). -/
def ShowClock.fresh (stepTimeout : Nat) (now : PlantTime) : ShowClock :=
  { plantTime := now, position := 0, state := .stopped, source := .onCrystal, stepTimeout := stepTimeout,
    armed := none, markCount := 0, lastSnap := 0, holdoverCount := 0 }

/-- The Sequencer after a reset (R40). -/
def Sequencer.fresh : Sequencer :=
  { state := .idle, pausedFrom := .preroll, running := none, run := ⟨0, 0, some 0, 0, 0, 0⟩, endPosition := 0,
    endReason := .none, cursor := 0, loopOffset := 0, loopStack := [], queue := [], flags := 0, lateCount := 0,
    skipCount := 0, issuedCount := 0, lastMark := none }

/-- A channel's live record after a reset (R70). -/
def ChannelLive.fresh : ChannelLive :=
  { fade := Fade.zero, override := none, abortClose := false, requested := 0, effective := 0, trimUsed := 256,
    demand := 0, hold := ⟨false, false, false⟩, grant := 0, status := .idle, curveOpening := 0, opening := 0 }

/-- A pump's live record after a reset or a PUMP_CONFIG (R90, R89). -/
def PumpLive.fresh (cfg : PumpCfg) : PumpLive :=
  { state := .stopped, target := 0, ramp := cfg.ramp, commanded := 0, actual := 0, ready := false, running := false,
    exchange := .none, misses := 0, fault := none, startTime := 0 }

/-- A manifold's record after a reset, its first update at `next` (R105, R106; the plant time of the last update:
DESIGN CHOICE, log 6). -/
def ManifoldRec.fresh (reserve : Nat) (next : PlantTime) : ManifoldRec :=
  { reserve := reserve,
    summary := { admitLevel := 7, available := 0, usable := 0, levels := List.replicate 7 ⟨0, .full⟩, scaled := none,
                 granted := 0, unallocated := 0 },
    lastUpdate := 0, nextUpdate := next }

/-- Whether some condition carries the WIND_PULSE role: AUTOMATIC (R117). -/
def hasWindPulse (cs : Table ConditionCfg 24) : Bool := cs.cells.any (fun c => c.role == .windPulse)

/-- A zone's factor for a band (R120). -/
def ZoneCfg.factor (z : ZoneCfg) (band : Nat) : Nat := z.factors.getD band 256

/-- The Wind Governor after a reset that ends at plant time `now` (R112, R113, R120). -/
def WindGov.fresh (cfg : WindCfg) (manualBand : Nat) (automatic : Bool) (now : PlantTime) : WindGov :=
  let band := if automatic then 0 else manualBand
  { cfg := cfg, manualBand := manualBand, gateCount := 0, gateStart := now, history := ⟨0, 0, 0⟩, lastAverage := 0,
    band := band, calm := 0, bandChanges := 0,
    zones := cfg.zones.map (fun z => { target := z.factor band, sourceBand := band, applied := 256 }),
    nextTrim := now + 100 }

/-- A fixture's live record after a reset (R127). -/
def FixtureLive.fresh : FixtureLive :=
  { fade := { start := .black, target := .black, t0 := 0, duration := 0, held := false }, master := 0,
    mode := .steady, intensity := 0, limits := ⟨false, false, false⟩, output := .black }

/-- A stream's record after a reset (R142, R143). -/
def Stream.fresh (share : Nat) : Stream :=
  { state := .idle, pausedFrom := .playing, track := 0, format := .stereo16, startPosition := 0, nextAddress := 0,
    leftToRead := 0, leftToPlay := 0, framesOutput := 0, gain := Fade.zero, share := share, ring := [], headPos := 0,
    boundary := false, silenceLeft := 0, silencePasses := false, underruns := 0 }

/-- The unsplit pool (R143). -/
def Table.freshStreams : Table Stream 4 := ⟨[.fresh 16, .fresh 0, .fresh 0, .fresh 0], rfl⟩

/-- The level of a condition's source, given the latest samples of the lines (R161). -/
def LineSource.level (src : LineSource) (samples : BitVec 32) : Bool :=
  match src with
  | .line i => samples.getLsbD i.val
  | .constLow => false
  | .constHigh => true

/-- A condition sample: the source level, inverted when invert is set (R161). -/
def ConditionCfg.sample (cfg : ConditionCfg) (samples : BitVec 32) : Bool :=
  xor (cfg.source.level samples) cfg.invert

/-- A condition seeded with one condition sample, as a window full of it (R164, R169). -/
def Condition.seeded (cfg : ConditionCfg) (samples : BitVec 32) : Condition :=
  { cfg := cfg, prescaleCount := 0, due := false, history := List.replicate cfg.window (cfg.sample samples),
    filtered := cfg.sample samples }

/-- A clear entry of the pending set (R194). -/
def NoticeEntry.clear : NoticeEntry := { pending := false, count := 0, detail := none }

/-- The control link as a reset begins: nothing is pending and no reply waits (R194, R196, R199). -/
def LinkPort.cleared : LinkPort :=
  { rx := .hunting, outstanding := false, replies := [], notices := Table.fill 8 NoticeEntry.clear, mask := 0xFF#8,
    line := none, resetTaken := false }

/-- The Control Link Port at the end of start-up: everything clear, START pending with count 1 and the detail IMAGE
or DEFAULTS (R187, R194, R196, R199). -/
def LinkPort.fresh (image : Bool) : LinkPort :=
  { LinkPort.cleared with
    notices := LinkPort.cleared.notices.set 7 { pending := true, count := 1, detail := some (.startUp image) } }

/-- The Output Matrix after a reset (R176, R181, R184). -/
def OutputUnit.fresh (lines : Table OutputCfg 64) : OutputUnit :=
  { mode := .safe, lines := lines, host := 0, duty := Table.fill 48 0, pwmOn := false }

/-- The Jet Channel Unit after a reset (R67, R69, R70). -/
def JetUnit.fresh (img : Image) : JetUnit :=
  { channels := img.channels.map (fun cfg => { cfg := cfg, live := .fresh }), groups := img.jetGroups }

/-- The pumps and manifolds after a reset that ends at `now` (R90, R93, R105, R106). -/
def WaterUnit.fresh (img : Image) (now : PlantTime) : WaterUnit :=
  { pumps := img.pumps.map (fun cfg => { cfg := cfg, live := .fresh cfg }),
    poll := { next := 0, awaiting := none, request := [] },
    manifolds := ⟨[.fresh (img.reserves.get 0) (now + 10), .fresh (img.reserves.get 1) (now + 15)], rfl⟩ }

/-- The Lighting Unit after a reset that ends at `now` (R123, R125 to R127, R132; the frame's data before the first
frame: DESIGN CHOICE, log 6). -/
def LightUnit.fresh (img : Image) (now : PlantTime) : LightUnit :=
  { fixtures := img.fixtures.map (fun cfg => { cfg := cfg, live := .fresh }), groups := img.fixtureGroups,
    settings := img.lighting, nextFrame := now, frameCount := 0, lastFrame := 0, lastSlots := 0, lastEnvelope := none,
    line := [] }

/-- The Playback Unit after a reset (R141 to R143, R152, R153, R157). -/
def AudioUnit.fresh (img : Image) : AudioUnit :=
  { tracks := img.tracks, streams := .freshStreams, read := none, masterGain := img.masterGain,
    release := img.release, envelope := 0, clip := false, outLeft := 0, outRight := 0, serial := [], blockCount := 0,
    blockPeak := 0 }

/-- The Trip Unit with its conditions seeded and every latch clear (R169, steps 1 and the start of 2). -/
def TripUnit.fresh (img : Image) (samples : BitVec 32) : TripUnit :=
  { samples := samples, conditions := img.conditions.map (fun cfg => .seeded cfg samples),
    reactions := img.reactions.map (fun cfg => { cfg := cfg, latch := false }) }

end Sys2Proof.Machine
end

