-- ==== Sys2Proof/Machine/State.lean ====
section
/-! DEFINITION. The state of the 648, the reasons a command can stop, and the state right after reset. -/

namespace Sys2Proof.Machine

/-- Why the machine stops with a fault. -/
inductive Fault where
  /-- Raised by REFILL_READ_COMPLETE when the bytes of the refill read lie at or above 1 GiB, where the spec gives the
  flash no byte (R141, R159; log 37). Safe: the model stops, and no track the 648 accepts reaches there. -/
  | flashOutOfRange
deriving DecidableEq, Repr

/-- Why a command is refused by the model. -/
inductive Refusal where
  /-- A command that has no meaning yet, refused by name in exec's arm. Safe: the model stops. No arm raises it. -/
  | notModelled (mnemonic : String)
deriving DecidableEq, Repr

/-- The whole state of the 648 (INVENTORY.md, State) with the queue of waiting commands. `free` counts the free
choices taken (Config.choice, log 10). -/
structure State where
  phase : Phase
  baud : Baud
  clock : ShowClock
  store : ShowStore
  seq : Sequencer
  jets : JetUnit
  water : WaterUnit
  wind : WindGov
  light : LightUnit
  audio : AudioUnit
  flash : FlashUnit
  trip : TripUnit
  out : OutputUnit
  link : LinkPort
  free : Nat
  pending : List Instr
deriving DecidableEq, Repr

/-- The 648 right after a reset that found no valid image: start-up has ended at plant time 0 (R199), factory defaults
stand, START is pending. Values the spec does not give: the link's speed and the line samples (log 5), the flash's
contents (log 7, log 8), the free counter (log 10). -/
def State.reset : State :=
  { phase := .running, baud := .b115200,
    clock := .fresh Image.factory.stepTimeout 0,
    store := { dir := Image.factory.dir, cues := Image.factory.cues },
    seq := .fresh,
    jets := .fresh Image.factory,
    water := .fresh Image.factory 0,
    wind := .fresh Image.factory.wind Image.factory.manualBand (hasWindPulse Image.factory.conditions) 0,
    light := .fresh Image.factory 0,
    audio := .fresh Image.factory,
    flash := { mem := [], image := none, saves := 0, op := none },
    trip := .fresh Image.factory 0,
    out := .fresh Image.factory.outputs,
    link := .fresh false,
    free := 0,
    pending := [] }

end Sys2Proof.Machine
end

