-- ==== Sys2Proof/Machine/Arith.lean ====
section
/-! DEFINITION. The manual's arithmetic: plant times, fades, shifts, roots, saturating counts (00_scope.md, Arithmetic;
R1, R72). -/

namespace Sys2Proof.Machine

/-- The elapsed time from plant time `a` to plant time `b`: the modular difference (R1). -/
def elapsed (a b : PlantTime) : Nat := (b - a).toNat

/-- Whether the plant time `t` is reached at `now` (R1). -/
def reached (now t : PlantTime) : Bool := decide ((now - t).toNat < 2 ^ 31)

/-- The elapsed time of a fade, held at its duration once it has reached it (R1, R72). -/
def fadeElapsed (held : Bool) (t0 : PlantTime) (duration : Nat) (now : PlantTime) : Nat :=
  if held then duration else min duration (elapsed t0 now)

/-- The fade formula: v0 plus trunc((v1 - v0) × e / F), and v1 when F is 0 (R72, R128, R142). -/
def interpolate (v0 v1 e duration : Nat) : Nat :=
  if duration = 0 then v1
  else ((v0 : Int) + (((v1 : Int) - (v0 : Int)) * (e : Int)).tdiv (duration : Int)).toNat

/-- The elapsed time of a fade at `now` (R72). -/
def Fade.elapsedAt (f : Fade) (now : PlantTime) : Nat := fadeElapsed f.held f.t0 f.duration now

/-- A fade's value at `now` (R72, R142). -/
def Fade.valueAt (f : Fade) (now : PlantTime) : Nat :=
  interpolate f.start f.target (f.elapsedAt now) f.duration

/-- A fade restarted at `now` from the value it has there (R73, R150). -/
def Fade.restart (f : Fade) (now : PlantTime) (target duration : Nat) : Fade :=
  { start := f.valueAt now, target := target, t0 := now, duration := duration, held := false }

/-- The held mark of a fade as plant time comes to `now` (R1). -/
def Fade.tick (f : Fade) (now : PlantTime) : Fade :=
  { f with held := f.held || decide (f.duration ≤ elapsed f.t0 now) }

/-- The elapsed time of a colour fade at `now` (R128). -/
def ColourFade.elapsedAt (f : ColourFade) (now : PlantTime) : Nat := fadeElapsed f.held f.t0 f.duration now

/-- A colour fade's colour at `now`, component by component (R128). -/
def ColourFade.valueAt (f : ColourFade) (now : PlantTime) : Colour :=
  let e := f.elapsedAt now
  { r := interpolate f.start.r f.target.r e f.duration, g := interpolate f.start.g f.target.g e f.duration,
    b := interpolate f.start.b f.target.b e f.duration, w := interpolate f.start.w f.target.w e f.duration }

/-- A colour fade restarted at `now` from the colour it has there (R129). -/
def ColourFade.restart (f : ColourFade) (now : PlantTime) (target : Colour) (duration : Nat) : ColourFade :=
  { start := f.valueAt now, target := target, t0 := now, duration := duration, held := false }

/-- The held mark of a colour fade as plant time comes to `now` (R1). -/
def ColourFade.tick (f : ColourFade) (now : PlantTime) : ColourFade :=
  { f with held := f.held || decide (f.duration ≤ elapsed f.t0 now) }

/-- Round-shift by n: shift right arithmetically by n bits, then add the last bit shifted out (00_scope.md). -/
def roundShift (x : Int) (n : Nat) : Int :=
  if n = 0 then x else x >>> n + (x >>> (n - 1)) % 2

/-- Round-shift of a value that is not negative. -/
def roundShiftNat (x n : Nat) : Nat := (roundShift x n).toNat

/-- The root built bit by bit from 2^k downward: the largest root whose square is not above x, among those that agree
with r above bit k. -/
def rootBits (x : Nat) : Nat → Nat → Nat
  | 0, r => r
  | k + 1, r => if (r + 2 ^ k) * (r + 2 ^ k) ≤ x then rootBits x k (r + 2 ^ k) else rootBits x k r

/-- The integer square root of x, for x below 2^32 (00_scope.md, R78). -/
def intSqrt (x : Nat) : Nat := rootBits x 16 0

/-- A count raised by one, saturating at `top`. -/
def satSucc (top n : Nat) : Nat := min top (n + 1)

/-- A 16-bit run counter raised by one (R8, R11, R65). -/
def count16 (n : Nat) : Nat := satSucc 65535 n

/-- `o` moved toward `c` by at most `down` or `up` (R82, R95, R120). -/
def moveToward (o c up down : Nat) : Nat :=
  if o < c then min c (o + up) else max c (o - down)

/-- The number that stands for a manifold (R190: A 0, B 1). -/
def manifoldNum : Manifold → Fin 2
  | .a => 0
  | .b => 1

end Sys2Proof.Machine
end

