-- ==== Sys2Proof/Machine/Encode.lean ====
section
/-! DEFINITION. The bytes of fields, codes, notices and frames on the control link (R185, R189, R190), and the two
CRCs (R185, R197). -/

namespace Sys2Proof.Machine

/-! ### Numbers -/

/-- A number in n bytes, low byte first (R190). -/
def le : Nat → Nat → List Byte
  | 0, _ => []
  | n + 1, x => BitVec.ofNat 8 x :: le n (x / 256)

/-- The number that bytes spell, low byte first (R190). -/
def ofLe : List Byte → Nat
  | [] => 0
  | b :: bs => b.toNat + 256 * ofLe bs

/-- A signed number in n bytes, low byte first (R190). -/
def leInt (n : Nat) (x : Int) : List Byte := le n (x % (2 ^ (8 * n) : Nat)).toNat

/-- One byte. -/
def u8 (x : Nat) : List Byte := le 1 x

/-- Two bytes. -/
def u16 (x : Nat) : List Byte := le 2 x

/-- Four bytes. -/
def u32 (x : Nat) : List Byte := le 4 x

/-- set or clear, yes or no, HIGH or LOW (R190). -/
def bit (b : Bool) : List Byte := u8 b.toNat

/-- An index that may be NONE, 0xFF (R190). -/
def optIndex (x : Option Nat) : List Byte := u8 (x.getD 0xFF)

/-! ### CRCs -/

/-- One bit of the CRC-16 (R185). -/
def crc16Bit (c : Half) : Half := if c.msb then (c <<< 1) ^^^ 0x1021#16 else c <<< 1

/-- f applied n times. -/
def iter {α : Type} (f : α → α) : Nat → α → α
  | 0, a => a
  | n + 1, a => iter f n (f a)

/-- One byte of the CRC-16, most significant bit first (R185). -/
def crc16Byte (c : Half) (b : Byte) : Half := iter crc16Bit 8 (c ^^^ (b.setWidth 16 <<< 8))

/-- The CRC-16 of the control link: polynomial 0x1021, initial value 0xFFFF (R185). -/
def crc16 (bs : List Byte) : Half := bs.foldl crc16Byte 0xFFFF#16

/-- One bit of the CRC-32 with reflected input and output (R197). -/
def crc32Bit (c : Quad) : Quad := if c.getLsbD 0 then (c >>> 1) ^^^ 0xEDB88320#32 else c >>> 1

/-- One byte of the CRC-32 (R197). -/
def crc32Byte (c : Quad) (b : Byte) : Quad := iter crc32Bit 8 (c ^^^ b.setWidth 32)

/-- The CRC-32 of the stored image: polynomial 0x04C11DB7 reflected, initial value 0xFFFFFFFF, final inversion
(R197). -/
def crc32 (bs : List Byte) : Quad := (bs.foldl crc32Byte 0xFFFFFFFF#32) ^^^ 0xFFFFFFFF#32

/-! ### Codes: a value's position in the list where the manual defines it (R190) -/

/-- Clock states (R17). -/
def ClockState.code : ClockState → Nat
  | .stopped => 0
  | .locked => 1
  | .holdover => 2

/-- Clock sources (R18). -/
def ClockSource.code : ClockSource → Nat
  | .onCrystal => 0
  | .external => 1

/-- Directory entry states (R18). -/
def ShowState.code : ShowState → Nat
  | .empty => 0
  | .loading => 1
  | .ready => 2

/-- Sequencer states (R40). -/
def SeqState.code : SeqState → Nat
  | .idle => 0
  | .preroll => 1
  | .playing => 2
  | .paused => 3
  | .ending => 4

/-- States paused from, by the field's own list and not the list of sequencer states (R40, R66, R190; DESIGN CHOICE,
log 15). -/
def PausedFrom.code : PausedFrom → Nat
  | .preroll => 0
  | .playing => 1

/-- End reasons; NONE is 0xFF (R40, R190; log 15). -/
def EndReason.code : EndReason → Nat
  | .none => 0xFF
  | .natural => 1
  | .stopRequest => 2
  | .ceiling => 3
  | .abortRequest => 4
  | .abortReaction => 5
  | .safe => 6

/-- Manifolds. -/
def manifoldCode : Manifold → Nat
  | .a => 0
  | .b => 1

/-- Channel types (R67). -/
def ChannelType.code : ChannelType → Nat
  | .proportional => 0
  | .switched => 1

/-- Grant statuses (R70). -/
def GrantStatus.code : GrantStatus → Nat
  | .idle => 0
  | .full => 1
  | .short => 2
  | .starved => 3
  | .excluded => 4
  | .held => 5

/-- Pump states (R90). -/
def PumpState.code : PumpState → Nat
  | .stopped => 0
  | .starting => 1
  | .running => 2
  | .stopping => 3
  | .faulted => 4
  | .locked => 5

/-- Results of the latest poll; NONE is 0xFF (R90, R190; log 15). -/
def Exchange.code : Exchange → Nat
  | .none => 0xFF
  | .good => 1
  | .faultReply => 2
  | .miss => 3

/-- A fault in two bytes: its code or 0xFF, then the drive's code (R193), which is 0 for a fault that is not the drive's
and when there is none (DESIGN CHOICE, log 42). -/
def faultBytes : Option FaultCode → List Byte
  | none => u8 0xFF ++ u8 0
  | some .linkLost => u8 0 ++ u8 0
  | some .startTimeout => u8 1 ++ u8 0
  | some (.drive c) => u8 2 ++ u8 c

/-- Outcomes of a level (R110). -/
def LevelOutcome.code : LevelOutcome → Nat
  | .full => 0
  | .scaled => 1
  | .starved => 2
  | .empty => 3

/-- Fixture kinds (R123). -/
def FixtureKind.code : FixtureKind → Nat
  | .basin => 0
  | .jet => 1
  | .deck => 2

/-- Lamp kinds of a LAMP_LIMIT (R165). -/
def LampKind.code : LampKind → Nat
  | .only k => k.code
  | .all => 3

/-- Fixture modes (R191). -/
def LampMode.code : LampMode → Nat
  | .steady => 0
  | .follow => 1

/-- Track formats (R141). -/
def TrackFormat.code : TrackFormat → Nat
  | .stereo16 => 0
  | .mono16 => 1

/-- Stream states (R142). -/
def StreamState.code : StreamState → Nat
  | .idle => 0
  | .loading => 1
  | .playing => 2
  | .paused => 3
  | .stopping => 4

/-- States a stream was paused from, by the field's own list and not the list of stream states (R142, R158, R190; DESIGN
CHOICE, log 15). -/
def StreamPausedFrom.code : StreamPausedFrom → Nat
  | .playing => 0
  | .stopping => 1

/-- A condition source in two bytes (R161, R190). -/
def LineSource.bytes : LineSource → List Byte
  | .line i => u8 0 ++ u8 i.val
  | .constLow => u8 1 ++ u8 0
  | .constHigh => u8 2 ++ u8 0

/-- Roles (R161). -/
def Role.code : Role → Nat
  | .general => 0
  | .clockStep => 1
  | .clockMark => 2
  | .windPulse => 3

/-- A reaction source in two bytes (R165, R190). -/
def ReactionSource.bytes : ReactionSource → List Byte
  | .condition c => u8 0 ++ u8 c.val
  | .bandAtLeast b => u8 1 ++ u8 b
  | .anyPumpFaulted => u8 2 ++ u8 0
  | .driveLinkLost => u8 3 ++ u8 0
  | .clockHoldover => u8 4 ++ u8 0

/-- Triggers (R165). -/
def Trigger.code : Trigger → Nat
  | .high => 0
  | .low => 1
  | .rise => 2
  | .fall => 3
  | .any => 4

/-- Releases (R165). -/
def Release.code : Release → Nat
  | .host => 0
  | .hostWhenInactive => 1

/-- A reaction kind with its arguments in three bytes (R165, R190). -/
def ReactionKind.bytes : ReactionKind → List Byte
  | .noticeOnly => u8 0 ++ u8 0 ++ u8 0
  | .flagSet n => u8 1 ++ u8 n.val ++ u8 0
  | .showPause => u8 2 ++ u8 0 ++ u8 0
  | .showAbort => u8 3 ++ u8 0 ++ u8 0
  | .plantSafe => u8 4 ++ u8 0 ++ u8 0
  | .zoneHold z => u8 5 ++ u8 z.val ++ u8 0
  | .admitLimit m l => u8 6 ++ u8 (manifoldCode m) ++ u8 l
  | .lampLimit k v => u8 7 ++ u8 k.code ++ u8 v
  | .pumpLock m => u8 8 ++ u8 (manifoldCode m) ++ u8 0

/-- Plant modes (R176). -/
def PlantMode.code : PlantMode → Nat
  | .safe => 0
  | .live => 1

/-- An output line source in two bytes (R181, R190). -/
def OutputSource.bytes : OutputSource → List Byte
  | .channelOpening c => u8 0 ++ u8 c.val
  | .pumpPermit p => u8 1 ++ u8 p.val
  | .plantLive => u8 2 ++ u8 0
  | .showActive => u8 3 ++ u8 0
  | .tripAny => u8 4 ++ u8 0
  | .flag n => u8 5 ++ u8 n.val
  | .condition c => u8 6 ++ u8 c.val
  | .hostLevel => u8 7 ++ u8 0
  | .constLow => u8 8 ++ u8 0
  | .constHigh => u8 9 ++ u8 0

/-- Causes of a SHOW notice (R64). -/
def ShowCause.code : ShowCause → Nat
  | .state => 0
  | .mark => 1

/-- Causes of a CLOCK notice (R15). -/
def ClockCause.code : ClockCause → Nat
  | .holdover => 0
  | .snap => 1

/-- Causes of a WIND notice (R119). -/
def WindCause.code : WindCause → Nat
  | .rise => 0
  | .fall => 1
  | .mode => 2
  | .manual => 3

/-- Causes of an AUDIO notice (R156). -/
def AudioCause.code : AudioCause → Nat
  | .underrun => 0
  | .resync => 1
  | .noTrack => 2

/-! ### Statuses and notices -/

/-- The statuses of a reply (R189). -/
inductive Status where
  | ok | busy | unknownKind | badLength | badArgument | badState | showRunning | notReady
  | noTrack | storeFull | badOrder | badTarget | badLoop | loopNesting | plantSafe | notSafe
  | tripLatched | sourceActive | slotOverlap | roleTaken | pumpFault | flashError
deriving DecidableEq, Repr

/-- A status's code (R189). -/
def Status.code : Status → Nat
  | .ok => 0
  | .busy => 1
  | .unknownKind => 2
  | .badLength => 3
  | .badArgument => 4
  | .badState => 5
  | .showRunning => 6
  | .notReady => 7
  | .noTrack => 8
  | .storeFull => 9
  | .badOrder => 10
  | .badTarget => 11
  | .badLoop => 12
  | .loopNesting => 13
  | .plantSafe => 14
  | .notSafe => 15
  | .tripLatched => 16
  | .sourceActive => 17
  | .slotOverlap => 18
  | .roleTaken => 19
  | .pumpFault => 20
  | .flashError => 21

/-- A notice's place in the order of R195, which is also its kind less 0xC0. -/
def Notice.index : Notice → Fin 8
  | .trip .. => 0
  | .pump .. => 1
  | .run .. => 2
  | .clock .. => 3
  | .wind .. => 4
  | .audio .. => 5
  | .late .. => 6
  | .startUp .. => 7

/-- A notice's detail fields, in the order in which the owning rule lists them (R15, R52, R64, R99, R119, R156, R174,
R195, encoded by R190). -/
def Notice.detailBytes : Notice → List Byte
  | .trip i kind source trigger level time position =>
    u8 i ++ kind.bytes ++ source.bytes ++ u8 trigger.code ++ bit level ++ u32 time.toNat ++ leInt 4 position
  | .pump p code before actual time =>
    u8 p ++ faultBytes (some code) ++ u8 before.code ++ u16 actual ++ u32 time.toNat
  | .run cause number previous new reason position mark =>
    u8 cause.code ++ optIndex number ++ u8 previous.code ++ u8 new.code ++ u8 reason.code ++ leInt 4 position ++
      u8 mark
  | .clock cause amount position time => u8 cause.code ++ leInt 2 amount ++ leInt 4 position ++ u32 time.toNat
  | .wind cause old new average time => u8 cause.code ++ u8 old ++ u8 new ++ u16 average ++ u32 time.toNat
  | .audio cause stream track output underruns error position time =>
    u8 cause.code ++ u8 stream ++ u8 track ++ u32 output ++ u16 underruns ++ leInt 4 error ++ leInt 4 position ++
      u32 time.toNat
  | .late cue nominal position lateness => u16 cue ++ leInt 4 nominal ++ leInt 4 position ++ leInt 4 lateness
  | .startUp image => u8 (if image then 0 else 1)

/-! ### Frames -/

/-- The bytes of a frame that the CRC covers (R185). -/
def frameBody (kind tag : Byte) (payload : List Byte) : List Byte :=
  u16 payload.length ++ [kind, tag] ++ payload

/-- A whole frame, in either direction (R185). -/
def frameBytes (kind tag : Byte) (payload : List Byte) : List Byte :=
  0xA5#8 :: (frameBody kind tag payload ++ le 2 (crc16 (frameBody kind tag payload)).toNat)

/-- A reply's frame (R189). -/
def Reply.frame (r : Reply) : TxFrame :=
  { bytes := frameBytes r.kind r.tag r.payload, thenReset := r.thenReset }

/-- A notice's frame: kind 0xC0 plus its place in the order, tag 0, the count and then the detail (R195). -/
def NoticeEntry.frame (e : NoticeEntry) (place : Nat) : TxFrame :=
  { bytes := frameBytes (BitVec.ofNat 8 (0xC0 + place)) 0#8
      (u8 e.count ++ (match e.detail with | some n => n.detailBytes | none => [])),
    thenReset := false }

end Sys2Proof.Machine
end

