-- ==== Sys2Proof/Machine/Ops.lean ====
section
/-! DEFINITION. The shared operations: the flash's bytes, the pending set, the reply list, the transmit side, and the
judgement every request and every event goes through. -/

namespace Sys2Proof.Machine

/-- Plant time now (R1). -/
def State.now (s : State) : PlantTime := s.clock.plantTime

/-! ### The flash's bytes -/

/-- The canonical form of the flash's listed bytes: addresses strictly rising, and no byte equal to what an unlisted
address reads as. -/
def Memory.wf : List Host.Cell → Bool
  | [] => true
  | [c] => c.2 != Config.flashBlank
  | c :: d :: cs => decide (c.1 < d.1) && c.2 != Config.flashBlank && Memory.wf (d :: cs)

/-- The byte at an address of the listed memory (R141; an unlisted address reads 0xFF, log 7). -/
def Memory.read : List Host.Cell → Nat → Byte
  | [], _ => Config.flashBlank
  | c :: cs, a => if c.1 = a then c.2 else Memory.read cs a

/-- The list with the byte at one address set, in canonical form. -/
def Memory.write : List Host.Cell → Nat → Byte → List Host.Cell
  | [], a, b => if b = Config.flashBlank then [] else [(a, b)]
  | c :: cs, a, b =>
    if c.1 < a then c :: Memory.write cs a b
    else if c.1 = a then (if b = Config.flashBlank then cs else (a, b) :: cs)
    else if b = Config.flashBlank then c :: cs else (a, b) :: c :: cs

/-- Bytes written from an address upward. -/
def Memory.writeAll : List Host.Cell → Nat → List Byte → List Host.Cell
  | m, _, [] => m
  | m, a, b :: bs => Memory.writeAll (Memory.write m a b) (a + 1) bs

/-- An erase: n bytes from an address are unlisted, so that they read 0xFF (R159). -/
def Memory.erase (m : List Host.Cell) (a n : Nat) : List Host.Cell :=
  m.filter (fun c => decide (c.1 < a) || decide (a + n ≤ c.1))

/-- A page program: each bit ends 0 that is 0 in the old or the new data (R159). -/
def Memory.program : List Host.Cell → Nat → List Byte → List Host.Cell
  | m, _, [] => m
  | m, a, b :: bs => Memory.program (Memory.write m a (Memory.read m a &&& b)) (a + 1) bs

/-- The bytes of the stored image that the n-th save writes: marker, length and contents, then the CRC-32 over them
(R197). The body is free (log 8) and fits in the first MiB; the CRC-32 stands low byte first, an order that R197 does not
give (DESIGN CHOICE, log 8). -/
def imageBytes (n : Nat) : List Byte :=
  let body := (Config.imageBody n).take (Config.imageEnd - 4)
  body ++ le 4 (crc32 body).toNat

/-- A byte of the flash, by address, the stored image's among them (R141, R159, R197; log 7). -/
def FlashUnit.byte (f : FlashUnit) (a : Nat) : Byte := Memory.read f.mem a

/-- n bytes of the flash from an address upward. -/
def FlashUnit.bytes (f : FlashUnit) : Nat → Nat → List Byte
  | _, 0 => []
  | a, n + 1 => f.byte a :: f.bytes (a + 1) n

/-! ### Notices and replies -/

/-- An entry of the pending set as a new event of its kind leaves it (R194). -/
def NoticeEntry.merge (e : NoticeEntry) (n : Notice) : NoticeEntry :=
  if e.pending then { pending := true, count := satSucc 255 e.count, detail := some n }
  else { pending := true, count := 1, detail := some n }

/-- A block makes a notice kind pending (R194). -/
def State.makePending (s : State) (n : Notice) : State :=
  { s with link := { s.link with notices := s.link.notices.modify n.index (fun e => e.merge n) } }

/-- A reply joins the end of the reply list (R194). -/
def State.joinReply (s : State) (r : Reply) : State :=
  { s with link := { s.link with replies := s.link.replies ++ [r] } }

/-- A reply's kind: its request's kind plus 0x80 (R189). -/
def replyKind (kind : Byte) : Byte := kind + 0x80#8

/-- The owner's reply, made when it decides (R188, R189). -/
def State.answer (s : State) (kind tag : Byte) (status : Status) (fields : List Byte) : State :=
  s.joinReply { kind := replyKind kind, tag := tag, payload := u8 status.code ++ fields, thenReset := false }

/-- The reply of a request taken with no fields to carry. -/
def State.ok (s : State) (kind tag : Byte) : State := s.answer kind tag .ok []

/-- The reply of a refused request: the status is the whole payload (R189). -/
def State.refuse (s : State) (kind tag : Byte) (status : Status) : State := s.answer kind tag status []

/-- A BUSY reply, the link's or an owner's, discarded when the list already holds 3 or more replies (R159, R188,
R194). -/
def State.busyReply (s : State) (kind tag : Byte) : State :=
  if 3 ≤ s.link.replies.length then s else s.answer kind tag .busy []

/-! ### The transmit side -/

/-- The highest notice kind that is pending and enabled, from place k on (R195). -/
def firstPending (mask : Byte) : Nat → List NoticeEntry → Option (Nat × NoticeEntry)
  | _, [] => none
  | k, e :: es => if e.pending && mask.getLsbD k then some (k, e) else firstPending mask (k + 1) es

/-- The transmit side's choice while the line is free: the oldest reply, else the highest pending enabled notice, else
nothing (R195). -/
def LinkPort.choose (l : LinkPort) : LinkPort :=
  match l.line with
  | some _ => l
  | none =>
    match l.replies with
    | r :: rs => { l with line := some r.frame, replies := rs }
    | [] =>
      match firstPending l.mask 0 l.notices.cells with
      | some (k, e) =>
        { l with
          line := some (e.frame k),
          notices := l.notices.mapIdx
            (fun i e => if i = k then { e with pending := false, count := 0 } else e) }
      | none => l

/-- The choice of the transmit side, while the line is free (R195). -/
def State.transmit (s : State) : State := { s with link := s.link.choose }

/-! ### What every command goes through -/

/-- An event while the 648 runs, with the transmit side's choice before it (which start-up leaves to be made) and at its
end; outside running the event does not happen (R195, R199; log 4, log 14). -/
def State.event (s : State) (f : State → State) : State :=
  if s.phase = .running then (f s.transmit).transmit else s

/-- The receive side resumes hunting (R186). -/
def State.hunt (s : State) : State := { s with link := { s.link with rx := .hunting } }

/-- Whether a frame that completes is answered BUSY: a request is outstanding, or the reply list holds 4 replies
(R188, step 2). -/
def State.busy (s : State) : Bool := s.link.outstanding || decide (4 ≤ s.link.replies.length)

/-- A request that completes as a frame of its kind: discarded after a taken RESET (R199), answered BUSY (R188, step 2),
or dispatched to its owner (R188, step 5). -/
def State.judged (s : State) (kind tag : Byte) (owner : State → State) : State :=
  if s.link.resetTaken then s
  else if s.busy then s.busyReply kind tag
  else owner s

/-- The step that a request command makes: a frame of its kind completes (R186, R188; log 3). -/
def request (kind tag : Byte) (owner : State → State) (s : State) : Host.Outcome State Fault Refusal :=
  .next (s.event (fun s => s.hunt.judged kind tag owner))

/-- The step that an event command makes (log 1). -/
def happens (f : State → State) (s : State) : Host.Outcome State Fault Refusal := .next (s.event f)

/-! ### Free choices (R48, R171; log 10) -/

/-- The next free choice below n, and the counter advanced. -/
def State.chooseBelow (s : State) (n : Nat) : Nat × State :=
  (Config.choice s.free % n, { s with free := s.free + 1 })

/-- An effect taken for each element of a list, in an order that is a free choice; fuel is the list's length. -/
def takeEach {α : Type} (effect : α → State → State) : Nat → List α → State → State
  | 0, _, s => s
  | _ + 1, [], s => s
  | _ + 1, [a], s => effect a s
  | fuel + 1, a :: b :: as, s =>
    let (k, s) := s.chooseBelow (a :: b :: as).length
    match (a :: b :: as)[k]? with
    | some x => takeEach effect fuel ((a :: b :: as).eraseIdx k) (effect x s)
    | none => s

end Sys2Proof.Machine
end

