-- ==== Sys2Proof/WellFormed.lean ====
section
/-! DEFINITION. Which terms of Instr stand for a command: the lists have the lengths their rules give them. -/

namespace Sys2Proof

/-- A CHANNEL_CONFIG carries the nine curve points f0 to f8 (R67). -/
def ChannelArgs.wf (a : ChannelArgs) : Bool := a.curve.length == 9

/-- One zone of a WIND_CONFIG carries a factor for each band 0 to 7 (R120). -/
def ZoneArgs.wf (a : ZoneArgs) : Bool := a.factors.length == 8

/-- A WIND_CONFIG carries T1 to T7 and the four zones (R121). -/
def WindArgs.wf (a : WindArgs) : Bool :=
  a.thresholds.length == 7 && a.zones.length == 4 && a.zones.all ZoneArgs.wf

/-- The commands whose lists have their lengths: a page is 256 bytes (R159), a payload at most 1024 (R185), a drive
reply 7 (R94). -/
def Instr.wf : Instr → Bool
  | .channelConfig _ a => a.wf
  | .windConfig _ a => a.wf
  | .flashWrite _ _ data => data.length == 256
  | .showAppend _ payload => decide (payload.length ≤ 1024)
  | .inputConfig _ payload => decide (payload.length ≤ 1024)
  | .frameComplete _ _ payload => decide (payload.length ≤ 1024)
  | .driveReply bytes => bytes.length == 7
  | _ => true

end Sys2Proof
end

