-- ==== Sys2Proof/Machine/Operands.lean ====
section
/-! DEFINITION. What the raw codes and fields of requests and cues stand for: every operand form, with its range. A
function answers none where its rule calls the value out of range. -/

namespace Sys2Proof.Machine

/-! ### Single codes (R190) -/

/-- set or clear, HIGH or LOW: 0 or 1 (R190; another value is out of range, DESIGN CHOICE, log 28). -/
def bitOf (b : Byte) : Option Bool :=
  match b.toNat with
  | 0 => some false
  | 1 => some true
  | _ => none

/-- Manifold codes. -/
def manifoldOf (b : Byte) : Option Manifold :=
  match b.toNat with
  | 0 => some .a
  | 1 => some .b
  | _ => none

/-- Channel types (R67). -/
def channelTypeOf (b : Byte) : Option ChannelType :=
  match b.toNat with
  | 0 => some .proportional
  | 1 => some .switched
  | _ => none

/-- Clock sources (R18). -/
def clockSourceOf (b : Byte) : Option ClockSource :=
  match b.toNat with
  | 0 => some .onCrystal
  | 1 => some .external
  | _ => none

/-- A number below n, as the byte that carries it. -/
def below (n : Nat) (b : Byte) : Option (Fin n) := if h : b.toNat < n then some ⟨b.toNat, h⟩ else none

/-- A track number 0 to 63, or NONE, 0xFF (R18, R190). -/
def musicOf (b : Byte) : Option (Option Nat) :=
  if b.toNat = 0xFF then some none else if b.toNat < 64 then some (some b.toNat) else none

/-- A level code: 0 to 7, KEEP 0xFF, DEFAULT 0xFE (R190). -/
def levelCodeOf (b : Byte) : Option LevelCode :=
  if b.toNat < 8 then some (.level b.toNat)
  else if b.toNat = 0xFF then some .keep
  else if b.toNat = 0xFE then some .default
  else none

/-- Fixture kinds (R123). -/
def fixtureKindOf (b : Byte) : Option FixtureKind :=
  match b.toNat with
  | 0 => some .basin
  | 1 => some .jet
  | 2 => some .deck
  | _ => none

/-- A bound channel, or NONE, 0xFF (R123, R190). -/
def boundOf (b : Byte) : Option (Option (Fin 48)) :=
  if b.toNat = 0xFF then some none else (below 48 b).map some

/-- Fixture modes (R191). -/
def lampModeOf (b : Byte) : Option LampMode :=
  match b.toNat with
  | 0 => some .steady
  | 1 => some .follow
  | _ => none

/-- Track formats (R141). -/
def formatOf (b : Byte) : Option TrackFormat :=
  match b.toNat with
  | 0 => some .stereo16
  | 1 => some .mono16
  | _ => none

/-- Condition sources (R161, R190). The argument byte of a form that has none is not read (DESIGN CHOICE, log 41). -/
def lineSourceOf (form arg : Byte) : Option LineSource :=
  match form.toNat with
  | 0 => (below 32 arg).map .line
  | 1 => some .constLow
  | 2 => some .constHigh
  | _ => none

/-- Roles (R161). -/
def roleOf (b : Byte) : Option Role :=
  match b.toNat with
  | 0 => some .general
  | 1 => some .clockStep
  | 2 => some .clockMark
  | 3 => some .windPulse
  | _ => none

/-- Reaction sources (R165, R190). The argument byte of a form that has none is not read (DESIGN CHOICE, log 41). -/
def reactionSourceOf (form arg : Byte) : Option ReactionSource :=
  match form.toNat with
  | 0 => (below 24 arg).map .condition
  | 1 => if arg.toNat < 8 then some (.bandAtLeast arg.toNat) else none
  | 2 => some .anyPumpFaulted
  | 3 => some .driveLinkLost
  | 4 => some .clockHoldover
  | _ => none

/-- Triggers (R165). -/
def triggerOf (b : Byte) : Option Trigger :=
  match b.toNat with
  | 0 => some .high
  | 1 => some .low
  | 2 => some .rise
  | 3 => some .fall
  | 4 => some .any
  | _ => none

/-- Releases (R165). -/
def releaseOf (b : Byte) : Option Release :=
  match b.toNat with
  | 0 => some .host
  | 1 => some .hostWhenInactive
  | _ => none

/-- Lamp kinds of a LAMP_LIMIT (R165). -/
def lampKindOf (b : Byte) : Option LampKind :=
  if b.toNat = 3 then some .all else (fixtureKindOf b).map .only

/-- Reaction kinds with their arguments (R165, R190). The argument bytes that a kind does not use are not read (DESIGN
CHOICE, log 41). -/
def reactionKindOf (kind arg1 arg2 : Byte) : Option ReactionKind :=
  match kind.toNat with
  | 0 => some .noticeOnly
  | 1 => (below 16 arg1).map .flagSet
  | 2 => some .showPause
  | 3 => some .showAbort
  | 4 => some .plantSafe
  | 5 => (below 4 arg1).map .zoneHold
  | 6 => if arg2.toNat < 8 then (manifoldOf arg1).map (fun m => .admitLimit m arg2.toNat) else none
  | 7 => (lampKindOf arg1).map (fun k => .lampLimit k arg2.toNat)
  | 8 => (manifoldOf arg1).map .pumpLock
  | _ => none

/-- Output line sources (R181, R190). The argument byte of a form that has none is not read (DESIGN CHOICE, log 41). -/
def outputSourceOf (form arg : Byte) : Option OutputSource :=
  match form.toNat with
  | 0 => (below 48 arg).map .channelOpening
  | 1 => (below 8 arg).map .pumpPermit
  | 2 => some .plantLive
  | 3 => some .showActive
  | 4 => some .tripAny
  | 5 => (below 16 arg).map .flag
  | 6 => (below 24 arg).map .condition
  | 7 => some .hostLevel
  | 8 => some .constLow
  | 9 => some .constHigh
  | _ => none

/-- Mode codes of SET_PLANT (R177). -/
def modeOf (b : Byte) : Option PlantMode :=
  match b.toNat with
  | 0 => some .safe
  | 1 => some .live
  | _ => none

/-! ### Configurations -/

/-- Points of a curve: none above 16383, none below the one before (R67). -/
def risingFrom : Nat → List Nat → Bool
  | _, [] => true
  | p, q :: qs => decide (p ≤ q) && decide (q ≤ 16383) && risingFrom q qs

/-- A curve f0 to f8: f0 is 0 and the points do not fall (R67). -/
def curveOk (c : List Nat) : Bool := c.headD 1 == 0 && risingFrom 0 c

/-- A channel's configuration as CHANNEL_CONFIG carries it (R67, R68). -/
def channelCfgOf (a : ChannelArgs) : Option ChannelCfg := do
  let manifold ← manifoldOf a.manifold
  let zone ← below 4 a.zone
  let type ← channelTypeOf a.type
  let curve := a.curve.map BitVec.toNat
  if a.level.toNat ≤ 7 ∧ a.kn.toNat ≤ 4095 ∧ curveOk curve ∧ a.switchedFlow.toNat ≤ 16383 ∧ a.lead.toNat ≤ 4000 ∧
      1 ≤ a.normalSlew.toNat ∧ a.normalSlew.toNat ≤ 1000 ∧ 1 ≤ a.tripSlew.toNat ∧ a.tripSlew.toNat ≤ 1000 then
    some { manifold := manifold, zone := zone, type := type, level := a.level.toNat, kn := a.kn.toNat, curve := curve,
           switchedFlow := a.switchedFlow.toNat, lead := a.lead.toNat, normalSlew := a.normalSlew.toNat,
           tripSlew := a.tripSlew.toNat }
  else none

/-- A pump's configuration as PUMP_CONFIG carries it (R88, R89). -/
def pumpCfgOf (a : PumpArgs) : Option PumpCfg := do
  let manifold ← manifoldOf a.manifold
  if a.address.toNat ≤ 247 ∧ a.ratedFlow.toNat ≤ 16383 ∧ a.minSpeed.toNat ≤ 1000 ∧ a.lead.toNat ≤ 4000 ∧
      1 ≤ a.startTimeout.toNat ∧ a.startTimeout.toNat ≤ 60 then
    some { manifold := manifold, address := a.address.toNat, ratedFlow := a.ratedFlow.toNat,
           minSpeed := a.minSpeed.toNat, ramp := a.ramp.toNat, lead := a.lead.toNat,
           startTimeout := a.startTimeout.toNat }
  else none

/-- Thresholds: each from 1 to 999 and above the one before (R121). -/
def thresholdsOk : Nat → List Nat → Bool
  | _, [] => true
  | p, t :: ts => decide (p < t) && decide (t ≤ 999) && thresholdsOk t ts

/-- A zone's trim configuration as WIND_CONFIG carries it (R121). -/
def zoneCfgOf (z : ZoneArgs) : Option ZoneCfg :=
  let factors := z.factors.map BitVec.toNat
  if factors.all (fun f => decide (f ≤ 256)) ∧ 1 ≤ z.drop.toNat ∧ z.drop.toNat ≤ 256 ∧ 1 ≤ z.recover.toNat ∧
      z.recover.toNat ≤ 256 then
    some { factors := factors, drop := z.drop.toNat, recover := z.recover.toNat }
  else none

/-- The Wind Governor's configuration as WIND_CONFIG carries it (R121). -/
def windCfgOf (a : WindArgs) : Option WindCfg :=
  let ts := a.thresholds.map BitVec.toNat
  match a.zones with
  | [a0, a1, a2, a3] => do
    let z0 ← zoneCfgOf a0
    let z1 ← zoneCfgOf a1
    let z2 ← zoneCfgOf a2
    let z3 ← zoneCfgOf a3
    if 1 ≤ a.k.toNat ∧ a.k.toNat ≤ 10000 ∧ thresholdsOk 0 ts ∧ a.hysteresis.toNat ≤ ts.headD 0 ∧
        10 ≤ a.calmHold.toNat ∧ a.calmHold.toNat ≤ 600 then
      some { k := a.k.toNat, thresholds := ts, hysteresis := a.hysteresis.toNat, calmHold := a.calmHold.toNat,
             zones := ⟨[z0, z1, z2, z3], rfl⟩ }
    else none
  | _ => none

/-- A fixture's configuration as FIXTURE_CONFIG carries it (R123, R124). -/
def fixtureCfgOf (a : FixtureArgs) : Option FixtureCfg := do
  let kind ← fixtureKindOf a.kind
  let bound ← boundOf a.bound
  if a.base.toNat ≤ 509 ∧ a.lead.toNat ≤ 500 ∧ (kind = .jet ∨ bound = none) then
    some { base := a.base.toNat, kind := kind, bound := bound, lead := a.lead.toNat }
  else none

/-- The lighting settings as LIGHTING_CONFIG carries them (R126). -/
def lightSettingsOf (a : LightingArgs) : Option LightSettings :=
  if 25 ≤ a.period.toNat ∧ a.period.toNat ≤ 1000 then
    some { dryLimit := a.dry.toNat, idleColour := ⟨a.r.toNat, a.g.toNat, a.b.toNat, a.w.toNat⟩,
           idleMaster := a.idleMaster.toNat, safeWhite := a.safeWhite.toNat, period := a.period.toNat }
  else none

/-- The header of a show as SHOW_OPEN carries it, the entry LOADING with its cues from store index `first` on
(R29, R18). -/
def showEntryOf (a : ShowOpenArgs) (first : Nat) : Option ShowEntry := do
  let track ← musicOf a.track
  let source ← clockSourceOf a.source
  if a.preRoll.toNat ≤ 4000 ∧ a.endFade.toNat ≤ 10000 ∧ a.effects.toNat ≤ 3 then
    some { state := .loading, first := first, count := 0, track := track, preRoll := a.preRoll.toNat,
           endFade := a.endFade.toNat, effects := a.effects.toNat, source := source }
  else none

/-- A condition's configuration as one setting of INPUT_CONFIG carries it (R161, R164). -/
def conditionCfgOf (a : SettingArgs) : Option ConditionCfg := do
  let source ← lineSourceOf a.source a.sourceArg
  let invert ← bitOf a.invert
  let role ← roleOf a.role
  if a.window.toNat ≤ 63 ∧
      (a.window.toNat = 0 ∨ (1 ≤ a.threshold.toNat ∧ a.threshold.toNat ≤ a.window.toNat)) then
    some { source := source, invert := invert, prescale := a.prescale.toNat, window := a.window.toNat,
           threshold := a.threshold.toNat, role := role }
  else none

/-- A reaction's configuration as REACTION_CONFIG carries it; ANY does not go with HOST_WHEN_INACTIVE (R165, R170). -/
def reactionCfgOf (a : ReactionArgs) : Option ReactionCfg := do
  let unused ← bitOf a.use
  let source ← reactionSourceOf a.source a.sourceArg
  let trigger ← triggerOf a.trigger
  let release ← releaseOf a.release
  let kind ← reactionKindOf a.kind a.arg1 a.arg2
  if trigger = .any ∧ release = .hostWhenInactive then none
  else some { inUse := !unused, source := source, trigger := trigger, release := release, kind := kind }

/-- An output line's configuration as OUTPUT_CONFIG carries it (R181). -/
def outputCfgOf (a : OutputArgs) : Option OutputCfg := do
  let source ← outputSourceOf a.source a.sourceArg
  let invert ← bitOf a.invert
  let safe ← bitOf a.safe
  some { source := source, invert := invert, safeLevel := safe }

/-! ### Cue records (R191) -/

/-- Condition kinds, in the order of R27. -/
def condKindOf (b : Byte) : Option CondKind :=
  match b.toNat with
  | 0 => some .always
  | 1 => some .flagSet
  | 2 => some .flagClear
  | 3 => some .take
  | 4 => some .windBelow
  | 5 => some .windAtLeast
  | 6 => some .zoneClear
  | 7 => some .zoneOccupied
  | _ => none

/-- Two bytes of a record, low byte first. -/
def half (r : List Byte) (k : Nat) : Nat := (r.getD k 0).toNat + 256 * (r.getD (k + 1) 0).toNat

/-- A cue's kind and payload (R191); none where R30 refuses a code. The level code of a JET cue is 0 to 7 or KEEP
(R21). -/
def cueBodyOf (r : List Byte) : Option CueBody :=
  let b (k : Nat) : Byte := r.getD k 0
  match (b 3).toNat with
  | 0 =>
    match levelCodeOf (b 12) with
    | some .default => none
    | some l => some (.jet (half r 8) (half r 10) l)
    | none => none
  | 1 => some (.pump (half r 8) (half r 10))
  | 2 =>
    (lampModeOf (b 15)).map
      (fun m => .lamp (b 8).toNat (b 9).toNat (b 10).toNat (b 11).toNat (half r 12) (b 14).toNat m)
  | 3 =>
    match (b 8).toNat with
    | 0 => some (.audioStart (b 9).toNat (half r 10))
    | 1 => some (.audioStop (half r 12))
    | 2 => some (.audioGain (half r 10) (half r 12))
    | _ => none
  | 4 => some (.flag (BitVec.ofNat 16 (half r 8)) (BitVec.ofNat 16 (half r 10)))
  | 5 => some (.mark (b 8).toNat)
  | 6 => some (.loop (half r 8) (b 10).toNat)
  | _ => none

/-- A cue record of 16 bytes (R191). -/
def cueOf (r : List Byte) : Option Cue := do
  let body ← cueBodyOf r
  let cond ← condKindOf (r.getD 4 0)
  some { time := ofLe (r.take 3), cond := cond, arg := (r.getD 5 0).toNat, target := (r.getD 6 0).toNat,
         group := (r.getD 7 0).getLsbD 0, body := body }

/-- A list cut into pieces of n; fuel bounds their number. -/
def pieces {α : Type} (n : Nat) : Nat → List α → List (List α)
  | 0, _ => []
  | fuel + 1, xs => if xs.isEmpty then [] else xs.take n :: pieces n fuel (xs.drop n)

/-- One setting of an INPUT_CONFIG from its 8 bytes (R164, R190). -/
def settingOf (r : List Byte) : SettingArgs :=
  let b (k : Nat) : Byte := r.getD k 0
  { condition := b 0, source := b 1, sourceArg := b 2, invert := b 3, prescale := b 4, window := b 5, threshold := b 6,
    role := b 7 }

/-! ### Targets -/

/-- Whether the target of a JET action or a JET_SET reaches channel i (R21, R73): the channel itself, or the members
of the group as they stand. -/
def State.jetReach (s : State) (group : Bool) (index i : Nat) : Bool :=
  if group then
    match s.jets.groups.cells[index]? with
    | some g => g.members.getLsbD i
    | none => false
  else i == index

/-- Whether the target of a PUMP action or a PUMP_SET reaches a pump (R22, R91). -/
def pumpReach (group : Bool) (index i : Nat) (p : Pump) : Bool :=
  if group then manifoldCode p.cfg.manifold == index else i == index

/-- Whether the target of a LAMP action or a FIXTURE_SET reaches fixture i (R23, R129). -/
def State.lampReach (s : State) (group : Bool) (index i : Nat) : Bool :=
  if group then
    match s.light.groups.cells[index]? with
    | some g => g.members.getLsbD i
    | none => false
  else i == index

/-- A target index with its group flag, in range for its form: one of `one` things or one of `groups` groups
(R74, R92, R130; the group flag is 0 or 1, log 28). -/
def targetOf (one groups : Nat) (index group : Byte) : Option (Bool × Nat) :=
  match bitOf group with
  | some false => if index.toNat < one then some (false, index.toNat) else none
  | some true => if index.toNat < groups then some (true, index.toNat) else none
  | none => none

end Sys2Proof.Machine
end

