-- ==== Sys2Proof/Machine/Flags.lean ====
section
/-! DEFINITION. The levels one block reads off another: source levels, active reactions and the standing effects they
impose (R165 to R167, R172, R173), and the condition flags (R60). -/

namespace Sys2Proof.Machine

/-! ### Condition flags (R60) -/

/-- The mask of one flag. -/
def flagMask (n : Fin 16) : Half := 1#16 <<< n.val

/-- The flags after a clear mask and then a set mask, as one change (R25, R62). -/
def writeFlags (flags clear set : Half) : Half := (flags &&& ~~~clear) ||| set

/-- Whether Fn is set, for the argument byte of a cue's condition. -/
def flagIsSet (flags : Half) (n : Nat) : Bool := flags.getLsbD n

/-! ### Sources of reactions (R165) -/

/-- Whether a pump is FAULTED. -/
def Pump.faulted (p : Pump) : Bool := p.live.state == .faulted

/-- Whether a pump is configured: its drive address is not 0 (R88). -/
def Pump.configured (p : Pump) : Bool := p.cfg.address != 0

/-- ANY_PUMP_FAULTED: at least one pump is FAULTED (R99). -/
def State.anyPumpFaulted (s : State) : Bool := s.water.pumps.cells.any Pump.faulted

/-- DRIVE_LINK_LOST: every configured pump is FAULTED with code LINK_LOST, and some pump is configured (R99). -/
def State.driveLinkLost (s : State) : Bool :=
  let configured := s.water.pumps.cells.filter Pump.configured
  !configured.isEmpty && configured.all (fun p => p.faulted && p.live.fault == some .linkLost)

/-- A reaction source's level: true for HIGH (R165). -/
def State.sourceLevel (s : State) : ReactionSource → Bool
  | .condition c => (s.trip.conditions.get c).filtered
  | .bandAtLeast b => decide (b ≤ s.wind.band)
  | .anyPumpFaulted => s.anyPumpFaulted
  | .driveLinkLost => s.driveLinkLost
  | .clockHoldover => s.clock.state == .holdover

/-! ### Active reactions (R166, R167) -/

/-- Whether a trigger is an edge trigger (R165). -/
def Trigger.isEdge : Trigger → Bool
  | .high => false
  | .low => false
  | .rise => true
  | .fall => true
  | .any => true

/-- The post-edge level of an edge trigger; ANY has no single one (R167). -/
def Trigger.postEdge : Trigger → Option Bool
  | .rise => some true
  | .fall => some false
  | _ => none

/-- Whether a transition to `level` matches an edge trigger (R167). -/
def Trigger.matchesEdge (t : Trigger) (level : Bool) : Bool :=
  match t with
  | .rise => level
  | .fall => !level
  | .any => true
  | _ => false

/-- A reaction's active state, given its source's level (R165 to R167). -/
def Reaction.active (r : Reaction) (level : Bool) : Bool :=
  r.cfg.inUse &&
    match r.cfg.trigger with
    | .high => level
    | .low => !level
    | _ => r.latch

/-- Whether a reaction is active now. -/
def State.isActive (s : State) (r : Reaction) : Bool := r.active (s.sourceLevel r.cfg.source)

/-- The kinds of the reactions active now. -/
def State.activeKinds (s : State) : List ReactionKind :=
  (s.trip.reactions.cells.filter s.isActive).map (fun r => r.cfg.kind)

/-- Whether a latched reaction of release HOST_WHEN_INACTIVE stands with its source at the post-edge level
(R168, R170). -/
def State.sourceHeld (s : State) (r : Reaction) : Bool :=
  r.cfg.release == .hostWhenInactive && r.latch && r.cfg.trigger.postEdge == some (s.sourceLevel r.cfg.source)

/-- The latch of a reaction as start-up or a REACTION_CONFIG sets it, given its source's level (R169, R170). -/
def ReactionCfg.seedLatch (cfg : ReactionCfg) (level : Bool) : Bool :=
  cfg.inUse && cfg.trigger.postEdge == some level

/-! ### Standing effects (R172, R173) -/

/-- The lowest of the listed values, and `top` when there is none. -/
def lowest (top : Nat) (xs : List Nat) : Nat := xs.foldl min top

/-- Zone z is occupied: a ZONE_HOLD z reaction is active (R173). -/
def State.zoneOccupied (s : State) (z : Nat) : Bool :=
  s.activeKinds.any (fun k => match k with | .zoneHold y => y.val == z | _ => false)

/-- The level an ADMIT_LIMIT on manifold m names. -/
def ReactionKind.admits (m : Manifold) : ReactionKind → Option Nat
  | .admitLimit n level => if n = m then some level else none
  | _ => none

/-- A manifold's admit level: the lowest level of the active ADMIT_LIMIT reactions that name it, else 7 (R107). -/
def State.admitLevel (s : State) (m : Manifold) : Nat := lowest 7 (s.activeKinds.filterMap (·.admits m))

/-- Whether a lamp kind covers a fixture kind (R165). -/
def LampKind.covers (k : LampKind) (f : FixtureKind) : Bool :=
  match k with
  | .only g => g == f
  | .all => true

/-- The value that a LAMP_LIMIT covering fixtures of one kind names. -/
def ReactionKind.caps (f : FixtureKind) : ReactionKind → Option Nat
  | .lampLimit k value => if k.covers f then some value else none
  | _ => none

/-- The values of the active LAMP_LIMIT reactions that cover fixtures of one kind (R135). -/
def State.lampCaps (s : State) (f : FixtureKind) : List Nat := s.activeKinds.filterMap (·.caps f)

/-- Whether a PUMP_LOCK reaction for a manifold is active (R94, R101). -/
def State.pumpLocked (s : State) (m : Manifold) : Bool := s.activeKinds.any (· == .pumpLock m)

/-- Whether a PLANT_SAFE reaction is active (R177). -/
def State.safeHeld (s : State) : Bool := s.activeKinds.any (· == .plantSafe)

/-- TRIP_ANY: an IN_USE reaction other than NOTICE_ONLY is active (R172). -/
def State.tripAny (s : State) : Bool := s.activeKinds.any (· != .noticeOnly)

/-! ### What requests are judged by -/

/-- The plant mode is LIVE. -/
def State.live (s : State) : Bool := s.out.mode == .live

/-- The sequencer is IDLE. -/
def State.idle (s : State) : Bool := s.seq.state == .idle

end Sys2Proof.Machine
end

