-- ==== Sys2Proof/Machine/Audio.lean ====
section
/-! DEFINITION. The Playback Unit's tracks, streams, slot pool and refill, what starts, stops and pauses a stream, and
the requests and events that cannot end a run (08_music_playback.md). -/

namespace Sys2Proof.Machine

/-! ### Streams and the flash interface -/

/-- The bytes of a number of frames of a format (R141, R144). -/
def TrackFormat.frameBytes : TrackFormat → Nat
  | .stereo16 => 4
  | .mono16 => 2

/-- The number of a stream as a table index. -/
def streamNum (i : Nat) : Fin 4 := ⟨i % 4, Nat.mod_lt i (by decide)⟩

/-- A stream record changed. -/
def State.onStream (s : State) (i : Fin 4) (f : Stream → Stream) : State :=
  { s with audio := { s.audio with streams := s.audio.streams.modify i f } }

/-- A read in progress for a stream is discarded (R144). -/
def RefillRead.discardFor (r : RefillRead) (i : Fin 4) : RefillRead :=
  if r.stream = i then { r with discarded := true } else r

/-- The read in progress discarded if it is a stream's (R144). -/
def State.discardRead (s : State) (i : Fin 4) : State :=
  { s with audio := { s.audio with read := s.audio.read.map (·.discardFor i) } }

/-- A stream's record as it leaves for IDLE: its ring is freed, the other fields keep their values (R142). -/
def Stream.toIdle (t : Stream) : Stream :=
  { t with state := .idle, ring := [], headPos := 0, boundary := false, silenceLeft := 0, silencePasses := false }

/-- A stream goes IDLE (R142). -/
def State.idleStream (s : State) (i : Fin 4) : State := (s.discardRead i).onStream i Stream.toIdle

/-- Every stream goes IDLE (R49, R50). -/
def State.idleStreams (s : State) : State :=
  { s with audio := { s.audio with
      streams := s.audio.streams.map Stream.toIdle, read := s.audio.read.map (fun r => { r with discarded := true }) } }

/-- Whether every stream is IDLE (R159, R198). -/
def State.streamsIdle (s : State) : Bool := s.audio.streams.cells.all (fun t => t.state == .idle)

/-- Whether the flash interface is free (R144, R159; log 20). -/
def State.flashFree (s : State) : Bool := s.audio.read.isNone && s.flash.op.isNone

/-- Whether the refill arbiter may serve a stream (R144). -/
def Stream.eligible (t : Stream) : Bool :=
  t.state != .idle && decide (t.ring.length < t.share) && decide (0 < t.leftToRead)

/-- Of the eligible streams, the one with the fewest filled slots, the lower number between equals (R144). -/
def pickStream : Nat → List Stream → Option (Nat × Nat)
  | _, [] => none
  | k, t :: ts =>
    let rest := pickStream (k + 1) ts
    if t.eligible then
      match rest with
      | some (j, n) => if n < t.ring.length then some (j, n) else some (k, t.ring.length)
      | none => some (k, t.ring.length)
    else rest

/-- The start of a refill read for a stream (R144). -/
def State.startRead (s : State) (i : Fin 4) : State :=
  let t := s.audio.streams.get i
  { s with audio := { s.audio with
      read := some { stream := i, address := t.nextAddress, frames := min Config.slotFrames t.leftToRead,
                     format := t.format, discarded := false },
      streams := s.audio.streams.set i
        { t with nextAddress := t.nextAddress + Config.slotFrames * t.format.frameBytes,
                 leftToRead := t.leftToRead - Config.slotFrames } } }

/-- The refill arbiter's choice (R144; log 20). -/
def State.refill (s : State) : State :=
  if s.flashFree then
    match pickStream 0 s.audio.streams.cells with
    | some (i, _) => s.startRead (streamNum i)
    | none => s
  else s

/-! ### Starting, stopping, pausing -/

/-- An AUDIO notice made pending for a stream (R156). -/
def State.audioNotice (s : State) (cause : AudioCause) (i : Fin 4) (track : Nat) (error : Int) : State :=
  let t := s.audio.streams.get i
  s.makePending (.audio cause i.val track t.framesOutput t.underruns error s.clock.position s.now)

/-- A LOADING stream enters PLAYING once show position is at or above its start position (R147). -/
def Stream.judgeStart (t : Stream) (position : Int) : Stream :=
  if t.state = .loading ∧ t.startPosition ≤ position then { t with state := .playing, boundary := true } else t

/-- The record of a stream started on a track (R145, steps 2 to 6; the fade keeps its start time, log 17). -/
def Stream.load (t : Stream) (number : Nat) (track : Track) (position : Int) (gain : Nat) : Stream :=
  { t with
    state := .loading, track := number, format := track.format, startPosition := position,
    nextAddress := track.start, leftToRead := track.frames, leftToPlay := track.frames, framesOutput := 0,
    silenceLeft := 0, silencePasses := false, ring := [], headPos := 0, boundary := false,
    gain := { t.gain with start := min gain 4096, target := min gain 4096, duration := 0 } }

/-- A stream started on a defined track (R145, R146). -/
def State.startStream (s : State) (i : Fin 4) (number : Nat) (track : Track) (position : Int) (gain : Nat) : State :=
  (((s.idleStream i).onStream i (fun t => t.load number track position gain)).refill).onStream i
    (fun t => t.judgeStart s.clock.position)

/-- The track directory entry of a number; UNDEFINED beyond 63. -/
def State.trackOf (s : State) (number : Nat) : Option Track := (s.audio.tracks.cells[number]?).join

/-- AUDIO START (R145). -/
def State.audioStart (s : State) (i : Fin 4) (number : Nat) (position : Int) (gain : Nat) : State :=
  match s.trackOf number with
  | some track => s.startStream i number track position gain
  | none => s.audioNotice .noTrack i number 0

/-- A stream's gain fade under AUDIO GAIN (R150). -/
def Stream.setGain (t : Stream) (now : PlantTime) (gain fade : Nat) : Stream :=
  let restarted := { t with gain := t.gain.restart now (min gain 4096) fade }
  match t.state with
  | .loading => restarted
  | .playing => restarted
  | .paused =>
    match t.pausedFrom with
    | .playing => restarted
    | .stopping => t
  | .stopping => t
  | .idle => t

/-- AUDIO GAIN (R150). -/
def State.audioGain (s : State) (i : Fin 4) (gain fade : Nat) : State :=
  s.onStream i (fun t => t.setGain s.now gain fade)

/-- AUDIO STOP (R151). -/
def State.audioStop (s : State) (i : Fin 4) (fade : Nat) : State :=
  match (s.audio.streams.get i).state with
  | .idle => s
  | .loading => s.idleStream i
  | .paused => s.idleStream i
  | _ =>
    if fade = 0 then s.idleStream i
    else s.onStream i (fun t => { t with state := .stopping, gain := t.gain.restart s.now 0 fade })

/-- A STOP with a 500 ms fade for every stream (R45, step 5). -/
def State.stopStreams (s : State) : State :=
  (((s.audioStop 0 500).audioStop 1 500).audioStop 2 500).audioStop 3 500

/-- A stream as the sequencer enters PAUSED (R155). -/
def Stream.pause (t : Stream) : Stream :=
  match t.state with
  | .playing => { t with state := .paused, pausedFrom := .playing }
  | .stopping => { t with state := .paused, pausedFrom := .stopping }
  | _ => t

/-- A stream as the sequencer resumes (R155). -/
def Stream.resume (t : Stream) : Stream :=
  match t.state with
  | .paused =>
    { t with state := match t.pausedFrom with
        | .playing => .playing
        | .stopping => .stopping }
  | _ => t

/-- Every stream changed by a function of its record alone. -/
def State.onStreams (s : State) (f : Stream → Stream) : State :=
  { s with audio := { s.audio with streams := s.audio.streams.map f } }

/-- The shares of the pool for a declared effect stream count (R143). -/
def sharesFor : Nat → List Nat
  | 0 => [16, 0, 0, 0]
  | 1 => [8, 8, 0, 0]
  | _ => [4, 4, 4, 4]

/-- The pool split by a declared effect stream count (R143); 0 leaves it unsplit. -/
def State.splitPool (s : State) (effects : Nat) : State :=
  { s with audio := { s.audio with
      streams := s.audio.streams.mapIdx (fun i t => { t with share := (sharesFor effects).getD i 0 }) } }

/-! ### Refill completion (R144) -/

/-- A sample of two bytes, low byte first, signed (R141). -/
def sampleAt (bs : List Byte) (k : Nat) : Int :=
  (BitVec.ofNat 16 (ofLe [bs.getD k 0#8, bs.getD (k + 1) 0#8])).toInt

/-- The k-th frame of the bytes a read delivered (R141, R144). -/
def frameAt (format : TrackFormat) (bs : List Byte) (k : Nat) : AudioFrame :=
  match format with
  | .stereo16 => ⟨sampleAt bs (4 * k), sampleAt bs (4 * k + 2)⟩
  | .mono16 => ⟨sampleAt bs (2 * k), sampleAt bs (2 * k)⟩

/-- The slot a completed read fills: the track's frames, then zeros (R144). -/
def RefillRead.slot (r : RefillRead) (flash : FlashUnit) : List AudioFrame :=
  let bs := flash.bytes r.address (r.frames * r.format.frameBytes)
  (List.range Config.slotFrames).map (fun k => if k < r.frames then frameAt r.format bs k else ⟨0, 0⟩)

/-- The slot a read has delivered joins its stream's ring, unless the read was discarded (R144). -/
def State.fillSlot (s : State) (r : RefillRead) : State :=
  if r.discarded then s else s.onStream r.stream (fun t => { t with ring := t.ring ++ [r.slot s.flash] })

/-- The completion of the read in progress (R144). -/
def completeRead (s : State) : State :=
  match s.audio.read with
  | some r => (({ s with audio := { s.audio with read := none } }).fillSlot r).refill
  | none => s

/-- Whether the bytes of the read in progress lie beyond the flash (R141). -/
def State.readBeyond (s : State) : Bool :=
  match s.audio.read with
  | some r => !r.discarded && decide (Config.flashEnd < r.address + r.frames * r.format.frameBytes)
  | none => false

/-- REFILL_READ_COMPLETE (R144). -/
def execRefillReadComplete (s : State) : Host.Outcome State Fault Refusal :=
  if s.phase = .running ∧ s.readBeyond then .fault .flashOutOfRange else happens completeRead s

/-! ### Envelope (R153) -/

/-- The envelope after a block whose peak is `peak` (R153). -/
def nextEnvelope (env release peak : Nat) : Nat :=
  let p := peak / 128
  if env ≤ p then p else max p (env - release)

/-- The envelope event, once a block of 512 output frames has ended (R153; log 26). -/
def takeEnvelope (s : State) : State :=
  if Config.slotFrames ≤ s.audio.blockCount then
    { s with audio := { s.audio with
        envelope := nextEnvelope s.audio.envelope s.audio.release s.audio.blockPeak,
        blockCount := s.audio.blockCount - Config.slotFrames, blockPeak := 0 } }
  else s

/-- ENVELOPE_EVENT (R153). -/
def execEnvelopeEvent (s : State) : Host.Outcome State Fault Refusal := happens takeEnvelope s

/-! ### Requests -/

/-- A track as TRACK_DEFINE carries it, its address in range (R141, step 4). -/
def trackEntry (a : TrackArgs) (format : TrackFormat) : Option Track :=
  if a.start.toNat % 4096 = 0 ∧ Config.imageEnd ≤ a.start.toNat ∧
      a.start.toNat + a.frames.toNat * format.frameBytes ≤ Config.flashEnd then
    some { start := a.start.toNat, frames := a.frames.toNat, format := format }
  else none

/-- A track directory entry written. -/
def State.setTrack (s : State) (n : Fin 64) (t : Option Track) : State :=
  { s with audio := { s.audio with tracks := s.audio.tracks.set n t } }

/-- TRACK_DEFINE (R141). -/
def defineTrack (tag : Byte) (a : TrackArgs) (s : State) : State :=
  if s.live then s.refuse 0x40#8 tag .notSafe
  else
    match below 64 a.track, formatOf a.format with
    | some n, some format =>
      if a.frames = 0#32 then (s.setTrack n none).ok 0x40#8 tag
      else
        match trackEntry a format with
        | some t => (s.setTrack n (some t)).ok 0x40#8 tag
        | none => s.refuse 0x40#8 tag .badArgument
    | _, _ => s.refuse 0x40#8 tag .badArgument

/-- TRACK_DEFINE (R141). -/
def execTrackDefine (tag : Byte) (a : TrackArgs) (s : State) : Host.Outcome State Fault Refusal :=
  request 0x40#8 tag (defineTrack tag a) s

/-- A track directory entry as one optional field (R190). -/
def trackBytes : Option Track → List Byte
  | some t => u8 1 ++ u32 t.start ++ u32 t.frames ++ u8 t.format.code
  | none => u8 0 ++ u32 0 ++ u32 0 ++ u8 0

/-- TRACK_READ (R141). -/
def readTrack (tag track : Byte) (s : State) : State :=
  match below 64 track with
  | some n => s.answer 0x41#8 tag .ok (trackBytes (s.audio.tracks.get n))
  | none => s.refuse 0x41#8 tag .badArgument

/-- TRACK_READ (R141). -/
def execTrackRead (tag track : Byte) (s : State) : Host.Outcome State Fault Refusal :=
  request 0x41#8 tag (readTrack tag track) s

/-- AUDIO_CONFIG (R157). -/
def configureAudio (tag : Byte) (gain : Half) (release : Byte) (s : State) : State :=
  if release = 0#8 then s.refuse 0x42#8 tag .badArgument
  else
    ({ s with audio := { s.audio with masterGain := min gain.toNat 4096, release := release.toNat } }).ok 0x42#8 tag

/-- AUDIO_CONFIG (R157). -/
def execAudioConfig (tag : Byte) (gain : Half) (release : Byte) (s : State) : Host.Outcome State Fault Refusal :=
  request 0x42#8 tag (configureAudio tag gain release) s

/-- Whether a stream's refill read is in progress, one that still fills a slot (R158; log 19). -/
def State.readingFor (s : State) (i : Fin 4) : Bool :=
  match s.audio.read with
  | some r => r.stream == i && !r.discarded
  | none => false

/-- The fields of a STREAM_READ after the status; silence left, 0 to 512, is a quantity in two bytes and no frame count
in four (R158, R190; DESIGN CHOICE, log 15). -/
def State.streamBytes (s : State) (i : Fin 4) : List Byte :=
  let t := s.audio.streams.get i
  u8 i.val ++ u8 t.state.code ++ u8 t.pausedFrom.code ++ u8 t.track ++ u8 t.format.code ++ leInt 4 t.startPosition ++
    u32 t.framesOutput ++ u32 t.leftToRead ++ u32 t.leftToPlay ++ u16 (t.gain.valueAt s.now) ++ u16 t.gain.target ++
    u16 (t.gain.elapsedAt s.now) ++ u16 t.gain.duration ++ u16 t.share ++ u16 t.ring.length ++
    bit (s.readingFor i) ++ u16 t.silenceLeft ++ u16 t.underruns ++ bit s.audio.clip ++ u8 s.audio.envelope ++
    u16 s.audio.masterGain ++ u8 s.audio.release

/-- STREAM_READ (R158). -/
def readStream (tag stream : Byte) (s : State) : State :=
  match below 4 stream with
  | some i => s.answer 0x43#8 tag .ok (s.streamBytes i)
  | none => s.refuse 0x43#8 tag .badArgument

/-- STREAM_READ (R158). -/
def execStreamRead (tag stream : Byte) (s : State) : Host.Outcome State Fault Refusal :=
  request 0x43#8 tag (readStream tag stream) s

end Sys2Proof.Machine
end

