-- ==== Sys2Proof/Machine/Jets.lean ====
section
/-! DEFINITION. The Jet Channel Unit: configuration, fades, its share of the manifold update, and its requests
(04_jet_channels.md). -/

namespace Sys2Proof.Machine

/-! ### Heights, demands and openings -/

/-- Whether a channel is configured (R67, R87). -/
def ChannelCfg.configured (c : ChannelCfg) : Bool :=
  match c.type with
  | .proportional => c.kn != 0
  | .switched => c.switchedFlow != 0

/-- The level in force: the override, or the default level (R71). -/
def Channel.level (c : Channel) : Nat := c.live.override.getD c.cfg.level

/-- The effective height: the requested height trimmed by an applied factor (R77). -/
def effectiveHeight (h w : Nat) : Nat := roundShiftNat (h * w) 8

/-- The demand of a PROPORTIONAL channel at an effective height (R78). -/
def proportionalDemand (kn he : Nat) : Nat := min 16383 (roundShiftNat (kn * intSqrt (he * 256)) 8)

/-- The demand of a channel at an effective height (R78, R83). -/
def ChannelCfg.demand (c : ChannelCfg) (he : Nat) : Nat :=
  match c.type with
  | .proportional => proportionalDemand c.kn he
  | .switched => if he = 0 then 0 else c.switchedFlow

/-- The opening on the first segment of a curve in which a flow g lies, the segment's first point having opening o
(R81). -/
def curveSegment (g : Nat) : Nat → List Nat → Nat
  | o, a :: b :: rest => if a < g ∧ g ≤ b then o + (g - a) * 125 / (b - a) else curveSegment g (o + 125) (b :: rest)
  | o, _ => o

/-- The curve opening of a PROPORTIONAL channel for a grant g (R81). -/
def curveOpening (curve : List Nat) (g : Nat) : Nat :=
  if g = 0 then 0 else if curve.getD 8 0 ≤ g then 1000 else curveSegment g 0 curve

/-- The curve opening that a channel's grant calls for (R81, R83). -/
def ChannelCfg.openingFor (c : ChannelCfg) (demand grant : Nat) : Nat :=
  match c.type with
  | .proportional => curveOpening c.curve grant
  | .switched => if grant = demand ∧ 0 < demand then 1000 else 0

/-- The opening driven to the valve (R82, R83). -/
def ChannelCfg.drive (c : ChannelCfg) (held : Bool) (opening target : Nat) : Nat :=
  match c.type with
  | .proportional =>
    let slew := if held then c.tripSlew else c.normalSlew
    moveToward opening target slew slew
  | .switched => target

/-- Whether any hold reason stands (R79). -/
def HoldReasons.any (h : HoldReasons) : Bool := h.zone || h.safe || h.abort

/-! ### The manifold update: the Jet Channel Unit's share (R76) -/

/-- Stage 1 of an update for one channel: heights, demand and hold reasons (R77 to R79, R83). -/
def Channel.judge (c : Channel) (now : PlantTime) (w : Nat) (zoneHeld safe : Bool) : Channel :=
  let requested := c.live.fade.valueAt now
  let effective := effectiveHeight requested w
  { c with live := { c.live with
      requested := requested, effective := effective, trimUsed := w, demand := c.cfg.demand effective,
      hold := { zone := zoneHeld, safe := safe, abort := c.live.abortClose } } }

/-- Stage 3 of an update for one channel, and the release of the abort close (R75, R76, R81 to R83). -/
def Channel.take (c : Channel) (grant : Nat) (status : GrantStatus) : Channel :=
  let target := c.cfg.openingFor c.live.demand grant
  let opening := c.cfg.drive c.live.hold.any c.live.opening target
  { c with live := { c.live with
      grant := grant, status := status, curveOpening := target, opening := opening,
      abortClose := c.live.abortClose && opening != 0 } }

/-! ### Deliveries (R73 to R75) -/

/-- The level override after a delivery that carries a level code (R71, R73, R74). -/
def LevelCode.write (l : LevelCode) (o : Option Nat) : Option Nat :=
  match l with
  | .keep => o
  | .default => none
  | .level n => some n

/-- A delivery to one channel; `abort` says whether it is the abort's (R73, R75). -/
def ChannelLive.give (c : ChannelLive) (now : PlantTime) (height fade : Nat) (level : LevelCode) (abort : Bool) :
    ChannelLive :=
  { c with fade := c.fade.restart now (min height 4095) fade, override := level.write c.override, abortClose := abort }

/-- A delivery to every channel reached (R73). -/
def State.giveJets (s : State) (reach : Nat → Bool) (height fade : Nat) (level : LevelCode) (abort : Bool) : State :=
  { s with jets := { s.jets with
      channels := s.jets.channels.mapIdx
        (fun i c => if reach i then { c with live := c.live.give s.now height fade level abort } else c) } }

/-! ### Requests -/

/-- CHANNEL_CONFIG (R68). -/
def configureChannel (tag : Byte) (a : ChannelArgs) (s : State) : State :=
  if !a.wf then s.refuse 0x20#8 tag .badLength
  else if s.live then s.refuse 0x20#8 tag .notSafe
  else
    match below 48 a.channel, channelCfgOf a with
    | some c, some cfg =>
      ({ s with jets := { s.jets with channels := s.jets.channels.modify c (fun ch => { ch with cfg := cfg }) } }).ok
        0x20#8 tag
    | _, _ => s.refuse 0x20#8 tag .badArgument

/-- CHANNEL_CONFIG (R68). -/
def execChannelConfig (tag : Byte) (a : ChannelArgs) (s : State) : Host.Outcome State Fault Refusal :=
  request 0x20#8 tag (configureChannel tag a) s

/-- JET_GROUP_CONFIG (R69). -/
def configureJetGroup (tag : Byte) (a : JetGroupArgs) (s : State) : State :=
  if s.live then s.refuse 0x21#8 tag .notSafe
  else
    match below 16 a.group with
    | some g =>
      if a.lead.toNat ≤ 4000 then
        ({ s with jets := { s.jets with groups := s.jets.groups.set g ⟨a.members, a.lead.toNat⟩ } }).ok 0x21#8 tag
      else s.refuse 0x21#8 tag .badArgument
    | none => s.refuse 0x21#8 tag .badArgument

/-- JET_GROUP_CONFIG (R69). -/
def execJetGroupConfig (tag : Byte) (a : JetGroupArgs) (s : State) : Host.Outcome State Fault Refusal :=
  request 0x21#8 tag (configureJetGroup tag a) s

/-- JET_SET (R74). -/
def setJets (tag : Byte) (a : JetSetArgs) (s : State) : State :=
  if !s.idle then s.refuse 0x22#8 tag .showRunning
  else
    match targetOf 48 16 a.index a.group, levelCodeOf a.level with
    | some (group, index), some level =>
      let reach := s.jetReach group index
      (s.giveJets reach a.height.toNat a.fade.toNat level false).answer 0x22#8 tag .ok
        (u16 ((List.range 48).filter reach).length)
    | _, _ => s.refuse 0x22#8 tag .badArgument

/-- JET_SET (R74). -/
def execJetSet (tag : Byte) (a : JetSetArgs) (s : State) : Host.Outcome State Fault Refusal :=
  request 0x22#8 tag (setJets tag a) s

/-- The fields of a channel's configuration as the link carries them (R192). -/
def ChannelCfg.bytes (c : ChannelCfg) : List Byte :=
  u8 (manifoldCode c.manifold) ++ u8 c.zone.val ++ u8 c.type.code ++ u8 c.level ++ u16 c.kn ++ c.curve.flatMap u16 ++
    u16 c.switchedFlow ++ u16 c.lead ++ u16 c.normalSlew ++ u16 c.tripSlew

/-- Hold reasons in one byte: ZONE, SAFE, ABORT from bit 0 (R192). -/
def HoldReasons.code (h : HoldReasons) : Nat := h.zone.toNat + 2 * h.safe.toNat + 4 * h.abort.toNat

/-- The fields of a CHANNEL_READ after the status (R87, R192). -/
def Channel.bytes (c : Channel) (number : Nat) (now : PlantTime) : List Byte :=
  u8 number ++ c.cfg.bytes ++ bit c.cfg.configured ++ optIndex c.live.override ++ u8 c.level ++ bit c.live.abortClose ++
    u16 c.live.fade.start ++ u16 c.live.fade.target ++ u16 (c.live.fade.elapsedAt now) ++ u16 c.live.fade.duration ++
    u16 c.live.requested ++ u16 c.live.effective ++ u16 c.live.trimUsed ++ u16 c.live.demand ++ u16 c.live.grant ++
    u8 c.live.status.code ++ u8 c.live.hold.code ++ u16 c.live.curveOpening ++ u16 c.live.opening

/-- CHANNEL_READ (R87). -/
def readChannel (tag channel : Byte) (s : State) : State :=
  match below 48 channel with
  | some c => s.answer 0x23#8 tag .ok ((s.jets.channels.get c).bytes c.val s.now)
  | none => s.refuse 0x23#8 tag .badArgument

/-- CHANNEL_READ (R87). -/
def execChannelRead (tag channel : Byte) (s : State) : Host.Outcome State Fault Refusal :=
  request 0x23#8 tag (readChannel tag channel) s

/-- JET_GROUP_READ (R69). -/
def readJetGroup (tag group : Byte) (s : State) : State :=
  match below 16 group with
  | some g =>
    s.answer 0x24#8 tag .ok (le 6 (s.jets.groups.get g).members.toNat ++ u16 (s.jets.groups.get g).lead)
  | none => s.refuse 0x24#8 tag .badArgument

/-- JET_GROUP_READ (R69). -/
def execJetGroupRead (tag group : Byte) (s : State) : Host.Outcome State Fault Refusal :=
  request 0x24#8 tag (readJetGroup tag group) s

end Sys2Proof.Machine
end

