-- ==== Sys2Proof/Machine/Lights.lean ====
section
/-! DEFINITION. The Lighting Unit: fixtures, fades, looks, the lighting frame, and its requests
(07_colour_lighting.md). -/

namespace Sys2Proof.Machine

/-! ### Deliveries (R129, R131) -/

/-- 8-bit components as internal ones (00_scope.md, R129). -/
def Colour.widen (r g b w : Nat) : Colour := ⟨r * 257, g * 257, b * 257, w * 257⟩

/-- A LAMP action delivered to one fixture (R129). -/
def FixtureLive.give (f : FixtureLive) (now : PlantTime) (target : Colour) (fade master : Nat) (mode : LampMode) :
    FixtureLive :=
  { f with fade := f.fade.restart now target fade, master := master, mode := mode }

/-- A LAMP action delivered to every fixture reached (R129). -/
def State.giveLamps (s : State) (reach : Nat → Bool) (target : Colour) (fade master : Nat) (mode : LampMode) :
    State :=
  { s with light := { s.light with
      fixtures := s.light.fixtures.mapIdx
        (fun i f => if reach i then { f with live := f.live.give s.now target fade master mode } else f) } }

/-- The idle look delivered to one fixture, by its kind (R131). -/
def Fixture.idleLook (f : Fixture) (settings : LightSettings) (now : PlantTime) (fade : Nat) : Fixture :=
  match f.cfg.kind with
  | .deck =>
    let c := settings.idleColour
    { f with live := f.live.give now (.widen c.r c.g c.b c.w) fade settings.idleMaster .steady }
  | _ => { f with live := f.live.give now .black fade f.live.master f.live.mode }

/-- The idle look delivered to every fixture (R131). -/
def State.idleLooks (s : State) (fade : Nat) : State :=
  { s with light := { s.light with
      fixtures := s.light.fixtures.map (fun f => f.idleLook s.light.settings s.now fade) } }

/-! ### The lighting frame (R132 to R138) -/

/-- An output byte from a colour byte and an intensity (R136). -/
def outputByte (c i : Nat) : Nat := (c * i + 127) / 255

/-- The intensity from the master (R133, step 2). -/
def FixtureLive.intensityFrom (f : FixtureLive) (env : Nat) : Nat :=
  match f.mode with
  | .steady => f.master
  | .follow => f.master * env / 255

/-- A fixture's record after a frame in LIVE, given its bound channel's grant (none for an unbound fixture), the
envelope, the dry limit and the values of the applying lamp limits (R133 to R136). -/
def Fixture.frame (f : Fixture) (now : PlantTime) (env dryLimit : Nat) (grant : Option Nat) (caps : List Nat) :
    Fixture :=
  let i0 := f.live.intensityFrom env
  let i1 := if grant = some 0 then min i0 dryLimit else i0
  let i2 := lowest i1 caps
  let colour := f.live.fade.valueAt now
  { f with live := { f.live with
      intensity := i2, limits := { dry := decide (i1 < i0), limit := decide (i2 < i1), safe := false },
      output := ⟨outputByte (colour.r / 256) i2, outputByte (colour.g / 256) i2, outputByte (colour.b / 256) i2,
        outputByte (colour.w / 256) i2⟩ } }

/-- A fixture's record after a frame in SAFE (R137). -/
def Fixture.safeLook (f : Fixture) (white : Nat) : Fixture :=
  let w := if f.cfg.kind = .deck then white else 0
  { f with live := { f.live with intensity := w, limits := ⟨false, false, true⟩, output := ⟨0, 0, 0, w⟩ } }

/-- The number of slots of a frame: the highest slot of an assigned fixture, at least 24 (R138). -/
def slotCount (fs : List Fixture) : Nat :=
  ((fs.filter (fun f => f.cfg.base != 0)).map (fun f => f.cfg.base + 3)).foldl max 24

/-- Slot bytes with one fixture's bytes put in at its base slot; slot 1 is the head of the list (R138). -/
def Fixture.place (slots : List Byte) (f : Fixture) : List Byte :=
  if f.cfg.base = 0 then slots
  else
    let o := f.live.output
    (((slots.set (f.cfg.base - 1) (BitVec.ofNat 8 o.r)).set f.cfg.base (BitVec.ofNat 8 o.g)).set (f.cfg.base + 1)
      (BitVec.ofNat 8 o.b)).set (f.cfg.base + 2) (BitVec.ofNat 8 o.w)

/-- The slots 1 to N of a frame (R138). -/
def frameSlots (fs : List Fixture) : List Byte := fs.foldl Fixture.place (List.replicate (slotCount fs) 0#8)

/-- Whether the lighting line is idle: the frame sent last, of N slots, has lasted 112 µs and 44 µs for each of its N + 1
bytes (R132; log 21). -/
def State.lightLineIdle (s : State) : Bool :=
  s.light.line.isEmpty || decide (112 + 44 * (s.light.lastSlots + 1) ≤ 1000 * elapsed s.light.lastFrame s.now)

/-- Every fixture as the frame event leaves it (R133, R137). -/
def State.framedFixtures (s : State) : Table Fixture 96 :=
  if s.live then
    s.light.fixtures.map (fun f =>
      f.frame s.now s.audio.envelope s.light.settings.dryLimit
        (f.cfg.bound.map (fun c => (s.jets.channels.get c).live.grant)) (s.lampCaps f.cfg.kind))
  else s.light.fixtures.map (fun f => f.safeLook s.light.settings.safeWhite)

/-- The frame event, when its time is reached and the line is idle (R132). -/
def sendLightingFrame (s : State) : State :=
  if reached s.now s.light.nextFrame && s.lightLineIdle then
    let fixtures := s.framedFixtures
    { s with light := { s.light with
        fixtures := fixtures, nextFrame := s.now + BitVec.ofNat 32 s.light.settings.period,
        frameCount := s.light.frameCount + 1, lastFrame := s.now, lastSlots := slotCount fixtures.cells,
        lastEnvelope := if s.live then some s.audio.envelope else none,
        line := 0#8 :: frameSlots fixtures.cells } }
  else s

/-- LIGHTING_FRAME (R132 to R138). -/
def execLightingFrame (s : State) : Host.Outcome State Fault Refusal := happens sendLightingFrame s

/-! ### Requests -/

/-- Whether two base slots are both assigned and share a slot (R124). -/
def basesOverlap (a b : Nat) : Bool := a != 0 && b != 0 && decide (a < b + 4) && decide (b < a + 4)

/-- The lowest-numbered other fixture whose slots a base slot shares (R124, step 3). -/
def State.overlapping (s : State) (x base : Nat) : Option Nat :=
  (mapFrom (fun i f => i != x && basesOverlap base f.cfg.base) 0 s.light.fixtures.cells).findIdx? id

/-- FIXTURE_CONFIG (R124). -/
def configureFixture (tag : Byte) (a : FixtureArgs) (s : State) : State :=
  if s.live then s.refuse 0x38#8 tag .notSafe
  else
    match below 96 a.fixture, fixtureCfgOf a with
    | some x, some cfg =>
      match s.overlapping x.val cfg.base with
      | some y => s.answer 0x38#8 tag .slotOverlap (u8 y)
      | none =>
        ({ s with light := { s.light with
            fixtures := s.light.fixtures.modify x (fun f => { f with cfg := cfg }) } }).ok 0x38#8 tag
    | _, _ => s.refuse 0x38#8 tag .badArgument

/-- FIXTURE_CONFIG (R124). -/
def execFixtureConfig (tag : Byte) (a : FixtureArgs) (s : State) : Host.Outcome State Fault Refusal :=
  request 0x38#8 tag (configureFixture tag a) s

/-- FIXTURE_GROUP_CONFIG (R125). -/
def configureFixtureGroup (tag : Byte) (a : FixtureGroupArgs) (s : State) : State :=
  if s.live then s.refuse 0x39#8 tag .notSafe
  else
    match below 16 a.group with
    | some g =>
      if a.lead.toNat ≤ 500 then
        ({ s with light := { s.light with groups := s.light.groups.set g ⟨a.members, a.lead.toNat⟩ } }).ok 0x39#8 tag
      else s.refuse 0x39#8 tag .badArgument
    | none => s.refuse 0x39#8 tag .badArgument

/-- FIXTURE_GROUP_CONFIG (R125). -/
def execFixtureGroupConfig (tag : Byte) (a : FixtureGroupArgs) (s : State) : Host.Outcome State Fault Refusal :=
  request 0x39#8 tag (configureFixtureGroup tag a) s

/-- LIGHTING_CONFIG; before the first frame the first frame event's time stands (R126, R132; log 17). -/
def configureLighting (tag : Byte) (a : LightingArgs) (s : State) : State :=
  if s.live then s.refuse 0x3A#8 tag .notSafe
  else
    match lightSettingsOf a with
    | some settings =>
      ({ s with light := { s.light with
          settings := settings,
          nextFrame := if s.light.line.isEmpty then s.light.nextFrame
            else s.light.lastFrame + BitVec.ofNat 32 settings.period } }).ok 0x3A#8 tag
    | none => s.refuse 0x3A#8 tag .badArgument

/-- LIGHTING_CONFIG (R126). -/
def execLightingConfig (tag : Byte) (a : LightingArgs) (s : State) : Host.Outcome State Fault Refusal :=
  request 0x3A#8 tag (configureLighting tag a) s

/-- FIXTURE_SET (R130). -/
def setFixtures (tag : Byte) (a : FixtureSetArgs) (s : State) : State :=
  if !s.idle then s.refuse 0x3B#8 tag .showRunning
  else
    match targetOf 96 16 a.index a.group, lampModeOf a.mode with
    | some (group, index), some mode =>
      let reach := s.lampReach group index
      (s.giveLamps reach (.widen a.r.toNat a.g.toNat a.b.toNat a.w.toNat) a.fade.toNat a.master.toNat mode).answer
        0x3B#8 tag .ok (u16 ((List.range 96).filter reach).length)
    | _, _ => s.refuse 0x3B#8 tag .badArgument

/-- FIXTURE_SET (R130). -/
def execFixtureSet (tag : Byte) (a : FixtureSetArgs) (s : State) : Host.Outcome State Fault Refusal :=
  request 0x3B#8 tag (setFixtures tag a) s

/-- A colour's four components in two bytes each (R190). -/
def Colour.wideBytes (c : Colour) : List Byte := u16 c.r ++ u16 c.g ++ u16 c.b ++ u16 c.w

/-- A colour's four components in one byte each (R190). -/
def Colour.bytes (c : Colour) : List Byte := u8 c.r ++ u8 c.g ++ u8 c.b ++ u8 c.w

/-- Last limits in one byte: DRY, LIMIT, SAFE from bit 0 (R190). -/
def LampLimits.code (l : LampLimits) : Nat := l.dry.toNat + 2 * l.limit.toNat + 4 * l.safe.toNat

/-- The fields of a FIXTURE_READ after the status (R140). -/
def Fixture.bytes (f : Fixture) (number : Nat) (now : PlantTime) : List Byte :=
  u8 number ++ u16 f.cfg.base ++ u8 f.cfg.kind.code ++ optIndex (f.cfg.bound.map (·.val)) ++ u16 f.cfg.lead ++
    f.live.fade.start.wideBytes ++ f.live.fade.target.wideBytes ++ u16 (f.live.fade.elapsedAt now) ++
    u16 f.live.fade.duration ++ u8 f.live.master ++ u8 f.live.mode.code ++ u8 f.live.intensity ++
    u8 f.live.limits.code ++ f.live.output.bytes

/-- FIXTURE_READ (R140). -/
def readFixture (tag fixture : Byte) (s : State) : State :=
  match below 96 fixture with
  | some x => s.answer 0x3C#8 tag .ok ((s.light.fixtures.get x).bytes x.val s.now)
  | none => s.refuse 0x3C#8 tag .badArgument

/-- FIXTURE_READ (R140). -/
def execFixtureRead (tag fixture : Byte) (s : State) : Host.Outcome State Fault Refusal :=
  request 0x3C#8 tag (readFixture tag fixture) s

/-- FIXTURE_GROUP_READ (R125). -/
def readFixtureGroup (tag group : Byte) (s : State) : State :=
  match below 16 group with
  | some g =>
    s.answer 0x3D#8 tag .ok (le 12 (s.light.groups.get g).members.toNat ++ u16 (s.light.groups.get g).lead)
  | none => s.refuse 0x3D#8 tag .badArgument

/-- FIXTURE_GROUP_READ (R125). -/
def execFixtureGroupRead (tag group : Byte) (s : State) : Host.Outcome State Fault Refusal :=
  request 0x3D#8 tag (readFixtureGroup tag group) s

/-- The envelope value that the latest frame read; a free value when it read none (R140; log 36). -/
def LightUnit.envelopeRead (l : LightUnit) : Nat :=
  l.lastEnvelope.getD (Config.unreadEnvelope l.frameCount.toNat).toNat

/-- LIGHTING_READ (R140). -/
def readLighting (tag : Byte) (s : State) : State :=
  let l := s.light
  s.answer 0x3E#8 tag .ok
    (u8 l.settings.dryLimit ++ l.settings.idleColour.bytes ++ u8 l.settings.idleMaster ++ u8 l.settings.safeWhite ++
      u16 l.settings.period ++ u32 l.frameCount.toNat ++ u32 l.lastFrame.toNat ++ u16 l.lastSlots ++
      u8 l.envelopeRead)

/-- LIGHTING_READ (R140). -/
def execLightingRead (tag : Byte) (s : State) : Host.Outcome State Fault Refusal :=
  request 0x3E#8 tag (readLighting tag) s

end Sys2Proof.Machine
end

