-- ==== Sys2Proof/Machine/Pumps.lean ====
section
/-! DEFINITION. The Pump Controller: targets, ramps, the poll messages, what a poll exchange does to a pump, and the
requests that touch no reaction source (05_pumps_manifolds_and_the_flow_budget.md, R88 to R104). -/

namespace Sys2Proof.Machine

/-! ### Targets (R91) -/

/-- A speed as the Pump Controller clamps it (R91). -/
def PumpCfg.clamp (c : PumpCfg) (speed : Nat) : Nat := if speed = 0 then 0 else max (min speed 1000) c.minSpeed

/-- Whether a pump takes targets: it is neither FAULTED nor LOCKED (R91). -/
def PumpState.takesTarget : PumpState → Bool
  | .faulted => false
  | .locked => false
  | _ => true

/-- A target delivered to one pump; a ramp of 0 is the pump's default ramp (R91). -/
def Pump.give (p : Pump) (speed ramp : Nat) : Pump :=
  if p.live.state.takesTarget then
    { p with live := { p.live with
        target := p.cfg.clamp speed, ramp := if ramp = 0 then p.cfg.ramp else ramp } }
  else p

/-- A target delivered to every pump reached (R91). -/
def State.givePumps (s : State) (reach : Nat → Pump → Bool) (speed ramp : Nat) : State :=
  { s with water := { s.water with
      pumps := s.water.pumps.mapIdx (fun i p => if reach i p then p.give speed ramp else p) } }

/-- Entry to SAFE for one pump: target and commanded speed 0 (R102). -/
def Pump.zero (p : Pump) : Pump := { p with live := { p.live with target := 0, commanded := 0 } }

/-- Entry to SAFE for every pump (R102). -/
def State.zeroPumps (s : State) : State :=
  { s with water := { s.water with pumps := s.water.pumps.map Pump.zero } }

/-! ### Ramp and poll messages (R94, R95) -/

/-- The commanded speed after a poll slot's ramp step (R95). -/
def rampStep (commanded target ramp : Nat) : Nat :=
  if ramp = 0 then target
  else
    let step := max 1 (20000 / ramp)
    moveToward commanded target step step

/-- The checksum that makes the 8-bit sum of a message 0 (R94). -/
def checksum (bs : List Byte) : Byte := 0#8 - bs.foldl (· + ·) 0#8

/-- A message with its checksum byte. -/
def summed (bs : List Byte) : List Byte := bs ++ [checksum bs]

/-- The poll request for a pump: start byte, drive address, run order, commanded speed, checksum (R94). -/
def Pump.request (p : Pump) : List Byte :=
  summed ([0x3C#8] ++ u8 p.cfg.address ++ u8 (if p.live.commanded = 0 then 0 else 1) ++ u16 p.live.commanded)

/-- A drive's reply, read from its bytes (R94). -/
structure DriveAnswer where
  ready : Bool
  running : Bool
  faulted : Bool
  actual : Nat
  code : Nat
deriving DecidableEq, Repr

/-- A good reply to a poll of one address: 7 bytes, the start byte, the checksum and the address correct; a speed
above 1000 is taken as 1000 (R94; log 23). -/
def driveAnswer (address : Nat) (bs : List Byte) : Option DriveAnswer :=
  match bs with
  | [start, a, flags, low, high, code, _] =>
    if start = 0x3E#8 ∧ bs.foldl (· + ·) 0#8 = 0#8 ∧ a.toNat = address then
      some { ready := flags.getLsbD 0, running := flags.getLsbD 1, faulted := flags.getLsbD 2,
             actual := min 1000 (ofLe [low, high]), code := code.toNat }
    else none
  | _ => none

/-! ### States (R96 to R99, R101) -/

/-- The live record of a pump that enters FAULTED (R99). -/
def PumpLive.fail (l : PumpLive) (code : FaultCode) : PumpLive :=
  { l with state := .faulted, fault := some code, target := 0, commanded := 0 }

/-- The state that a good reply with the fault flag clear leads to (R97). -/
def Pump.nextState (p : Pump) : PumpState :=
  match p.live.state with
  | .stopped => if 0 < p.live.target then .starting else .stopped
  | .starting =>
    if p.live.target = 0 then .stopping
    else if p.cfg.minSpeed ≤ p.live.actual then .running
    else .starting
  | .running => if p.live.target = 0 then .stopping else .running
  | .stopping =>
    if 0 < p.live.target then .starting
    else if p.live.actual = 0 then .stopped
    else .stopping
  | .faulted => .faulted
  | .locked => .locked

/-- A pump after the transition of R97 at plant time `now`: the start time is recorded on entry to STARTING, and the
commanded speed becomes 0 on entry to STOPPED. -/
def Pump.transition (p : Pump) (now : PlantTime) : Pump :=
  let n := p.nextState
  if n = p.live.state then p
  else
    { p with live := { p.live with
        state := n,
        startTime := if n = .starting then now else p.live.startTime,
        commanded := if n = .stopped then 0 else p.live.commanded } }

/-- A good reply recorded in a pump's record (R96, steps 1 to 3). -/
def Pump.record (p : Pump) (r : DriveAnswer) : Pump :=
  { p with live := { p.live with
      actual := r.actual, ready := r.ready, running := r.running, misses := 0,
      exchange := if r.faulted then .faultReply else .good } }

/-- A miss recorded in a pump's record (R96). -/
def Pump.recordMiss (p : Pump) : Pump :=
  { p with live := { p.live with misses := satSucc 255 p.live.misses, exchange := .miss } }

/-- The lock judgement of a poll slot (R94 step 2, R101). -/
def Pump.judgeLock (p : Pump) (lock : Bool) : Pump :=
  if lock then
    if p.live.state = .locked then p
    else { p with live := { p.live with state := .locked, target := 0, commanded := 0, fault := none } }
  else if p.live.state = .locked then { p with live := { p.live with state := .stopped, target := 0 } }
  else p

/-- The ramp of a poll slot, skipped in FAULTED and LOCKED (R94 step 3, R95). -/
def Pump.ramp (p : Pump) : Pump :=
  if p.live.state.takesTarget then
    { p with live := { p.live with commanded := rampStep p.live.commanded p.live.target p.live.ramp } }
  else p

/-- PUMP_PERMIT: the pump is STARTING, RUNNING or STOPPING (R103). -/
def Pump.permit (p : Pump) : Bool :=
  match p.live.state with
  | .starting => true
  | .running => true
  | .stopping => true
  | _ => false

/-! ### Requests -/

/-- PUMP_SET (R92). -/
def setPumps (tag : Byte) (a : PumpSetArgs) (s : State) : State :=
  if !s.idle then s.refuse 0x29#8 tag .showRunning
  else
    match targetOf 8 2 a.index a.group with
    | some (group, index) =>
      if !s.live then s.refuse 0x29#8 tag .plantSafe
      else
        let written := (mapFrom (fun i p => pumpReach group index i p && p.live.state.takesTarget) 0
          s.water.pumps.cells).count true
        (s.givePumps (pumpReach group index) a.speed.toNat a.ramp.toNat).answer 0x29#8 tag .ok (u16 written)
    | none => s.refuse 0x29#8 tag .badArgument

/-- PUMP_SET (R92). -/
def execPumpSet (tag : Byte) (a : PumpSetArgs) (s : State) : Host.Outcome State Fault Refusal :=
  request 0x29#8 tag (setPumps tag a) s

/-- The fields of a PUMP_READ after the status (R104, R193). -/
def Pump.bytes (p : Pump) (number flow : Nat) : List Byte :=
  u8 number ++ u8 (manifoldCode p.cfg.manifold) ++ u8 p.cfg.address ++ u16 p.cfg.ratedFlow ++ u16 p.cfg.minSpeed ++
    u16 p.cfg.ramp ++ u16 p.cfg.lead ++ u8 p.cfg.startTimeout ++ u8 p.live.state.code ++ u16 p.live.target ++
    u16 p.live.commanded ++ u16 p.live.actual ++ u16 p.live.ramp ++
    u8 (p.live.ready.toNat + 2 * p.live.running.toNat) ++ u8 p.live.exchange.code ++ u8 p.live.misses ++
    faultBytes p.live.fault ++ u16 flow

end Sys2Proof.Machine
end

