-- ==== Sys2Proof/Machine/Sequencer.lean ====
section
/-! DEFINITION. The shared operations of the Sequencer that touch no reaction source: notices, pause, the targets of the
ending sequence and of the abort (03_the_sequencer.md, R40, R43, R45, R49, R64). -/

namespace Sys2Proof.Machine

/-- Every number of a target. -/
def everyOne : Nat → Bool := fun _ => true

/-- A SHOW notice with cause STATE made pending (R64). -/
def State.stateNotice (s : State) (number : Option Nat) (previous : SeqState) : State :=
  s.makePending (.run .state number previous s.seq.state s.seq.endReason s.clock.position 0)

/-- The sequencer's state changed, with its SHOW notice (R64). -/
def State.enterState (s : State) (new : SeqState) : State :=
  ({ s with seq := { s.seq with state := new } }).stateNotice s.seq.running s.seq.state

/-- A pause taken from PREROLL or PLAYING, recorded as the state paused from (R10, R43, R155). -/
def State.pauseFrom (s : State) (p : PausedFrom) : State :=
  (({ s with seq := { s.seq with pausedFrom := p }, clock := { s.clock with armed := none } }).onStreams
    Stream.pause).enterState .paused

/-- The pause: it is taken in PREROLL or PLAYING and has no effect otherwise (R43). -/
def State.pauseRun (s : State) : State :=
  match s.seq.state with
  | .preroll => s.pauseFrom .preroll
  | .playing => s.pauseFrom .playing
  | _ => s

/-- The queue emptied without evaluating or delivering an entry (R45, R49). -/
def State.emptyQueue (s : State) : State := { s with seq := { s.seq with queue := [] } }

/-- The end reason set (R40). -/
def State.withReason (s : State) (r : EndReason) : State := { s with seq := { s.seq with endReason := r } }

/-- The targets of the ending sequence (R45, steps 1 to 5). -/
def State.endingTargets (s : State) : State :=
  ((((s.emptyQueue.giveJets everyOne 0 s.seq.run.endFade .keep false).idleLooks s.seq.run.endFade).givePumps
    (fun _ _ => true) 0 0)).stopStreams

/-- The targets of the abort (R49, steps 1 to 5). -/
def State.abortTargets (s : State) : State :=
  (((s.emptyQueue.giveJets everyOne 0 0 .keep true).idleLooks 0).givePumps (fun _ _ => true) 0 0).idleStreams

/-- The condition flags written by a clear mask and then a set mask (R25, R62). -/
def State.changeFlags (s : State) (clear set : Half) : State :=
  { s with seq := { s.seq with flags := writeFlags s.seq.flags clear set } }

end Sys2Proof.Machine
end

