-- ==== Sys2Proof/Machine/Reactions.lean ====
section
/-! DEFINITION. Transitions of reaction sources: which latches they set, which reactions they activate, and the
once-effects, with the entry to IDLE, the abort and the entry to SAFE they share with the requests
(R50, R163, R166, R167, R171, R174, R178). -/

namespace Sys2Proof.Machine

/-! ### Activations (R166, R167) -/

/-- A reaction that becomes active at a transition: its number, its configuration, the source level after it. -/
structure Activation where
  number : Nat
  cfg : ReactionCfg
  level : Bool
deriving DecidableEq, Repr

/-- Whether a transition of its source from `b` to `a` makes a reaction active (R166, R167). -/
def Reaction.activates (r : Reaction) (b a : Bool) : Bool :=
  r.cfg.inUse && b != a &&
    match r.cfg.trigger with
    | .high => a
    | .low => !a
    | t => t.matchesEdge a && !r.latch

/-- A reaction after a transition of its source from `b` to `a`: the latch of an edge trigger is set by a matching
transition (R167). -/
def Reaction.latched (r : Reaction) (b a : Bool) : Reaction :=
  if r.cfg.inUse && b != a && r.cfg.trigger.isEdge && r.cfg.trigger.matchesEdge a then { r with latch := true } else r

/-- The reactions that become active between two states, in number order (R163). -/
def activations (before s : State) : List Activation :=
  (mapFrom (fun i r =>
    let a := s.sourceLevel r.cfg.source
    if r.activates (before.sourceLevel r.cfg.source) a then some (⟨i, r.cfg, a⟩ : Activation) else none)
    0 s.trip.reactions.cells).filterMap id

/-- The latches set by the transitions since the state `before` (R167). -/
def State.latchEdges (s before : State) : State :=
  { s with trip := { s.trip with
      reactions := s.trip.reactions.map
        (fun r => r.latched (before.sourceLevel r.cfg.source) (s.sourceLevel r.cfg.source)) } }

/-- A TRIP notice made pending for an activation (R174). -/
def State.tripNotice (s : State) (a : Activation) : State :=
  s.makePending (.trip a.number a.cfg.kind a.cfg.source a.cfg.trigger a.level s.now s.clock.position)

/-- The transitions between two states handed to every reaction: latches first, then each activation's notice and
once-effect, in an order that is a free choice (R163, R171; log 10). -/
def reactWith (once : ReactionKind → State → State) (before s : State) : State :=
  let acts := activations before s
  takeEach (fun a s => once a.cfg.kind (s.tripNotice a)) acts.length acts (s.latchEdges before)

/-! ### Entry to IDLE (R50) -/

/-- The mode set to SAFE: every line shows its safe level at once (R178, R182, R183). -/
def State.modeSafe (s : State) : State := { s with out := { s.out with mode := .safe, pwmOn := false } }

/-- A once-effect taken while the sequencer is IDLE: a pause or an abort has none, and an entry to SAFE finds no run
(R171). -/
def onceAtRest (k : ReactionKind) (s : State) : State :=
  match k with
  | .flagSet n => s.changeFlags 0 (flagMask n)
  | .plantSafe => if s.live then s.modeSafe.zeroPumps else s
  | _ => s

/-- Entry to IDLE, without the reactions to the clock's stop (R4, R50). -/
def State.stopRun (s : State) : State :=
  let idle := { s with
    seq := { s.seq with state := .idle, running := none, queue := [], loopStack := [] } }
  let told := (idle.idleStreams.splitPool 0).stateNotice s.seq.running s.seq.state
  { told with clock := { told.clock with state := .stopped, armed := none } }

/-- Entry to IDLE: R50 in order, then the clock goes to STOPPED (R4) and the Trip Unit takes that change (R9). -/
def State.enterIdle (s : State) : State := reactWith onceAtRest s s.stopRun

/-! ### Abort and entry to SAFE (R49, R178) -/

/-- The abort, in any state but IDLE (R49). -/
def State.abort (s : State) (reason : EndReason) : State :=
  if s.idle then s else (s.withReason reason).abortTargets.enterIdle

/-- Entry to SAFE (R178). -/
def State.enterSafe (s : State) : State := (s.modeSafe.abort .safe).zeroPumps

/-! ### Once-effects (R171) -/

/-- The once-effect of an activation (R171). -/
def onceEffect (k : ReactionKind) (s : State) : State :=
  match k with
  | .flagSet n => s.changeFlags 0 (flagMask n)
  | .showPause => s.pauseRun
  | .showAbort => s.abort .abortReaction
  | .plantSafe => if s.live then s.enterSafe else s
  | _ => s

/-- The transitions of reaction sources since the state `before`, handed to the Trip Unit (R163, R165). -/
def State.reactFrom (s before : State) : State := reactWith onceEffect before s

end Sys2Proof.Machine
end

