-- ==== Sys2Proof/Machine/Run.lean ====
section
/-! DEFINITION. The run of a show: the ending sequence, the reader, the issue queue, deliveries, the natural end, the
ceiling, and what a new value of show position does (03_the_sequencer.md; R13, R28, R147). -/

namespace Sys2Proof.Machine

/-! ### The ending sequence (R45 to R47) -/

/-- The end of ENDING, once show position is at or above the end position (R46). -/
def State.judgeEnd (s : State) : State :=
  if s.seq.state = .ending ∧ s.seq.endPosition ≤ s.clock.position then s.enterIdle else s

/-- The step timeout armed when ENDING is entered from PAUSED, EXTERNAL and LOCKED, and when such a run resumes
(R10, R45). -/
def State.armIfFollowing (s : State) : State :=
  if s.seq.state = .paused ∧ s.clock.source = .external ∧ s.clock.state = .locked then
    { s with clock := { s.clock with armed := some s.now } }
  else s

/-- The ending sequence with its reason, up to the entry to ENDING (R45). -/
def State.enterEnding (s : State) (reason : EndReason) : State :=
  let given := (s.withReason reason).endingTargets.armIfFollowing
  ({ given with seq := { given.seq with
      endPosition := given.clock.position + given.seq.run.endFade } }).enterState .ending

/-- The ending sequence with its reason; IDLE follows at once when the end fade is 0 (R45, R46). -/
def State.beginEnding (s : State) (reason : EndReason) : State := (s.enterEnding reason).judgeEnd

/-- Whether the natural end stands (R47). -/
def State.atNaturalEnd (s : State) : Bool :=
  s.seq.state == .playing && s.seq.cursor == s.seq.run.count && s.seq.queue.isEmpty &&
    (s.audio.streams.get 0).state == .idle

/-- The natural end judged (R47). -/
def State.judgeNaturalEnd (s : State) : State := if s.atNaturalEnd then s.beginEnding .natural else s

/-! ### Leads (R28) -/

/-- The lead of a cue, from the configuration as it stands (R28). -/
def State.lead (s : State) (c : Cue) : Nat :=
  match c.body with
  | .jet .. =>
    if c.group then ((s.jets.groups.cells[c.target]?).map (·.lead)).getD 0
    else ((s.jets.channels.cells[c.target]?).map (·.cfg.lead)).getD 0
  | .pump .. =>
    if c.group then
      ((s.water.pumps.cells.filter (fun p => manifoldCode p.cfg.manifold == c.target)).map (·.cfg.lead)).foldl max 0
    else ((s.water.pumps.cells[c.target]?).map (·.cfg.lead)).getD 0
  | .lamp .. =>
    if c.group then ((s.light.groups.cells[c.target]?).map (·.lead)).getD 0
    else ((s.light.fixtures.cells[c.target]?).map (·.cfg.lead)).getD 0
  | .audioStart .. => 50
  | .audioStop .. => 50
  | .audioGain .. => 50
  | _ => 0

/-! ### The reader (R51 to R53) -/

/-- The running show's cue with a cue index (R19). -/
def State.cueAt (s : State) (k : Nat) : Option Cue := s.store.cues[s.seq.run.first + k]?

/-- Whether the reader is active (R51). -/
def SeqState.reading : SeqState → Bool
  | .preroll => true
  | .playing => true
  | .paused => true
  | _ => false

/-- Whether the issue event is taken (R57). -/
def SeqState.issuing : SeqState → Bool
  | .preroll => true
  | .playing => true
  | _ => false

/-- The nominal time of a cue (R51). -/
def State.nominal (s : State) (c : Cue) : Int := c.time + s.seq.loopOffset

/-- The cue that the reader takes next, when all its conditions hold (R51). -/
def State.nextCue (s : State) : Option Cue :=
  if s.seq.state.reading ∧ s.seq.cursor < s.seq.run.count ∧ s.seq.queue.length < Config.queueMax then
    match s.cueAt s.seq.cursor with
    | some c => if s.nominal c ≤ s.clock.position + Config.lookAhead then some c else none
    | none => none
  else none

/-- An entry inserted after every entry whose issue time is at or below its own (R55). -/
def insertEntry (e : QueueEntry) : List QueueEntry → List QueueEntry
  | [] => [e]
  | q :: qs => if q.issueTime ≤ e.issueTime then q :: insertEntry e qs else e :: q :: qs

/-- An entry's late read counted and reported; the lateness is the show position less the unclamped issue time
(R52). -/
def State.reportLate (s : State) (e : QueueEntry) (unclamped : Int) : State :=
  if e.late then
    ({ s with seq := { s.seq with lateCount := count16 s.seq.lateCount } }).makePending
      (.late e.cue e.nominal s.clock.position (s.clock.position - unclamped))
  else s

/-- The queue entry of a cue and its unclamped issue time (R52). -/
def State.entryFor (s : State) (c : Cue) : QueueEntry × Int :=
  let unclamped := s.nominal c - s.lead c
  ({ cue := s.seq.cursor, nominal := s.nominal c, action := c,
     issueTime := max unclamped s.clock.position, late := decide (unclamped < s.clock.position) }, unclamped)

/-- The reading of a cue of any kind but LOOP (R52). -/
def State.readEntry (s : State) (c : Cue) : State :=
  let e := s.entryFor c
  ({ s with seq := { s.seq with
      queue := insertEntry e.1 s.seq.queue, cursor := s.seq.cursor + 1 } }).reportLate e.1 e.2

/-- The loop stack with the entry of the LOOP cue at index i on top (R53, step 1). -/
def pushLoop (stack : List LoopEntry) (i count : Nat) : List LoopEntry :=
  match stack with
  | e :: es => if e.cue = i then e :: es else ⟨i, count⟩ :: e :: es
  | [] => [⟨i, count⟩]

/-- The loop step at a LOOP cue (R53). -/
def State.readLoop (s : State) (c : Cue) (target count : Nat) : State :=
  let targetTime := match s.cueAt target with
    | some t => t.time
    | none => c.time
  match pushLoop s.seq.loopStack s.seq.cursor count with
  | [] => s
  | e :: es =>
    if e.remaining = 0 then { s with seq := { s.seq with loopStack := es, cursor := s.seq.cursor + 1 } }
    else
      { s with seq := { s.seq with
          loopStack := { e with remaining := if e.remaining = 255 then 255 else e.remaining - 1 } :: es,
          loopOffset := s.seq.loopOffset + ((c.time : Int) - targetTime), cursor := target } }

/-- The reader takes a cue (R51). -/
def State.readCue (s : State) (c : Cue) : State :=
  match c.body with
  | .loop target count => s.readLoop c target count
  | _ => s.readEntry c

/-! ### The issue event (R57 to R59) -/

/-- Whether an entry's condition is true now (R27, R58). -/
def State.conditionHolds (s : State) (c : Cue) : Bool :=
  match c.cond with
  | .always => true
  | .flagSet => flagIsSet s.seq.flags c.arg
  | .flagClear => !flagIsSet s.seq.flags c.arg
  | .take => flagIsSet s.seq.flags c.arg
  | .windBelow => decide (s.wind.band < c.arg)
  | .windAtLeast => decide (c.arg ≤ s.wind.band)
  | .zoneClear => !s.zoneOccupied c.arg
  | .zoneOccupied => s.zoneOccupied c.arg

/-- A true TAKE clears its flag in the same step (R58). -/
def State.takeFlag (s : State) (c : Cue) : State :=
  match c.cond with
  | .take => s.changeFlags (1#16 <<< c.arg) 0
  | _ => s

/-- A delivered MARK action (R63, R64). -/
def State.deliverMark (s : State) (number : Nat) : State :=
  ({ s with seq := { s.seq with lastMark := some number } }).makePending
    (.run .mark s.seq.running s.seq.state s.seq.state s.seq.endReason s.clock.position number)

/-- An action delivered to its owner, with the entry's nominal time (R59). -/
def State.deliver (s : State) (c : Cue) (nominal : Int) : State :=
  match c.body with
  | .jet height fade level => s.giveJets (s.jetReach c.group c.target) height fade level false
  | .pump speed ramp => s.givePumps (pumpReach c.group c.target) speed ramp
  | .lamp r g b w fade master mode =>
    s.giveLamps (s.lampReach c.group c.target) (.widen r g b w) fade master mode
  | .audioStart track gain => s.audioStart (streamNum c.target) track nominal gain
  | .audioStop fade => s.audioStop (streamNum c.target) fade
  | .audioGain gain fade => s.audioGain (streamNum c.target) gain fade
  | .flag clear set => s.changeFlags clear set
  | .mark number => s.deliverMark number
  | .loop .. => s

/-- The issue of one entry, already removed from the queue (R57, R58). -/
def State.issueEntry (s : State) (e : QueueEntry) : State :=
  if s.conditionHolds e.action then
    let t := (s.takeFlag e.action).deliver e.action e.nominal
    { t with seq := { t.seq with issuedCount := count16 t.seq.issuedCount } }
  else { s with seq := { s.seq with skipCount := count16 s.seq.skipCount } }

/-- Whether the head of the queue is due for issue (R57). -/
def State.headDue (s : State) : Bool :=
  s.seq.state.issuing &&
    match s.seq.queue with
    | e :: _ => decide (e.issueTime ≤ s.clock.position)
    | [] => false

/-- The head of the queue removed and issued (R57). -/
def State.issueHead (s : State) : State :=
  match s.seq.queue with
  | e :: es => ({ s with seq := { s.seq with queue := es } }).issueEntry e
  | [] => s

/-- Every due entry issued, in queue order; fuel bounds their number (R57). -/
def issueDue : Nat → State → State
  | 0, s => s
  | fuel + 1, s => if s.headDue then issueDue fuel s.issueHead else s

/-- The reader and the issue event taken in turn until neither has anything to do; a due head is issued before the next
cue is read (R51, R56, R57; log 12). -/
def readAndIssue : Nat → State → State
  | 0, s => s
  | fuel + 1, s =>
    if s.headDue then readAndIssue fuel s.issueHead
    else
      match s.nextCue with
      | some c => readAndIssue fuel (s.readCue c)
      | none => s

/-- More turns than the reader and the issue event can take at one event of a sealed show: a jump back comes at most once
in 100 ms of nominal time, with at most 4096 cues between two jumps (R34, R51; log 12). -/
def State.turns (s : State) : Nat :=
  let behind := match s.cueAt s.seq.cursor with
    | some c => (s.clock.position + Config.lookAhead - s.nominal c).toNat
    | none => 0
  2 * 4097 * (behind / 100 + 2) + 2 * Config.queueMax

/-- The reader and the issue event run to rest, and the natural end judged (R47, R51, R57; log 31). -/
def State.settle (s : State) : State := (readAndIssue s.turns s).judgeNaturalEnd

/-! ### New values of show position -/

/-- The position ceiling in PLAYING, up to the entry to ENDING; whether entries already due issue before it is a free
choice, and where their issue makes the natural end stand too the reason is CEILING (R48; DESIGN CHOICE, log 11). -/
def State.meetCeiling (s : State) : State :=
  if s.headDue then
    let (k, t) := s.chooseBelow 2
    if k = 0 then (issueDue t.seq.queue.length t).enterEnding .ceiling else t.enterEnding .ceiling
  else s.enterEnding .ceiling

/-- The position ceiling in PLAYING; IDLE follows at once when the end fade is 0 (R46, R48; log 11). -/
def State.reachCeiling (s : State) : State := s.meetCeiling.judgeEnd

/-- The end of pre-roll (R42). -/
def State.judgePreroll (s : State) : State :=
  if s.seq.state = .preroll ∧ 0 ≤ s.clock.position then s.enterState .playing else s

/-- LOADING streams whose start position is reached start playing; a pause holds them (R147; log 13). -/
def State.judgeStarts (s : State) : State :=
  if s.seq.state = .paused then s else s.onStreams (fun t => t.judgeStart s.clock.position)

/-- Whether show position stands at the position ceiling in PLAYING (R48). -/
def State.atCeiling (s : State) : Bool := s.seq.state == .playing && decide (Config.ceiling ≤ s.clock.position)

/-- A new value of show position handed to its readers (R2, R42, R46, R48, R51, R57, R147; log 12). -/
def State.newPosition (s : State) : State :=
  let s := s.judgePreroll.judgeEnd.judgeStarts
  if s.atCeiling then s.reachCeiling else s.settle

end Sys2Proof.Machine
end

