-- ==== Sys2Proof/Machine/Clock.lean ====
section
/-! DEFINITION. The Show Clock: the plant millisecond, steps, marks, the step timeout, and its requests
(01_show_time.md). -/

namespace Sys2Proof.Machine

/-- A CLOCK notice made pending (R15). -/
def State.clockNotice (s : State) (cause : ClockCause) (amount : Int) : State :=
  s.makePending (.clock cause amount s.clock.position s.now)

/-- Show position moved by an amount. -/
def State.movePosition (s : State) (d : Int) : State :=
  { s with clock := { s.clock with position := s.clock.position + d } }

/-! ### The plant millisecond (R1, R5) -/

/-- Plant time raised by one (R1). -/
def State.advanceTime (s : State) : State := { s with clock := { s.clock with plantTime := s.clock.plantTime + 1 } }

/-- The fades that have reached their durations hold there (R1; log 27). -/
def State.holdFades (s : State) : State :=
  { s with
    jets := { s.jets with
      channels := s.jets.channels.map (fun c => { c with live := { c.live with fade := c.live.fade.tick s.now } }) },
    light := { s.light with
      fixtures := s.light.fixtures.map (fun f => { f with live := { f.live with fade := f.live.fade.tick s.now } }) },
    audio := { s.audio with
      streams := s.audio.streams.map (fun t => { t with gain := t.gain.tick s.now }) } }

/-- Whether the plant millisecond advances show position (R5). -/
def State.ticksLocally (s : State) : Bool :=
  (match s.seq.state with
    | .preroll => true
    | .playing => true
    | .ending => true
    | _ => false) &&
  (match s.clock.state with
    | .holdover => true
    | .locked => s.clock.source == .onCrystal
    | .stopped => false)

/-- The plant millisecond while the 648 runs (R1, R5). Plant time and a local tick's deliveries move in one step, so a
lighting frame or another event that becomes due at the new plant time comes after those deliveries, although R139 lets
it be first (DESIGN CHOICE, log 44). -/
def tick (s : State) : State :=
  let t := s.advanceTime.holdFades
  if t.ticksLocally then (t.movePosition 1).newPosition else t

/-- PLANT_MILLISECOND: while start-up runs it counts plant time alone, and while the reset pin is held low nothing
(R1, R199; log 4). -/
def execPlantMillisecond (s : State) : Host.Outcome State Fault Refusal :=
  match s.phase with
  | .running => happens tick s
  | .resetting => .next s.advanceTime
  | .heldLow => .next s

/-! ### The step timeout (R8) -/

/-- Whether the step timeout has expired (R8). -/
def State.stepTimeoutDue (s : State) : Bool :=
  s.clock.state == .locked &&
    match s.clock.armed with
    | some t => decide (s.clock.stepTimeout ≤ elapsed t s.now)
    | none => false

/-- The expiry of the step timeout: the five steps of R8. -/
def State.holdOver (s : State) : State :=
  let t := ({ s with clock := { s.clock with state := .holdover } }).movePosition s.clock.stepTimeout
  let n := ({ t with clock := { t.clock with holdoverCount := count16 t.clock.holdoverCount } }).clockNotice .holdover 0
  { n with clock := { n.clock with armed := none } }

/-- What follows the holdover `h` of the state `s`: the Trip Unit takes the change of clock state before the new show
position is handed on (R8, R9; log 13). A catch-up that reaches the position ceiling has begun ENDING when the Trip Unit
takes the change, so that no pause keeps the run beyond the ceiling; IDLE follows at once when the end fade is 0 (R2, R46,
R48; log 13). -/
def State.afterHoldOver (h s : State) : State :=
  if h.atCeiling then (h.judgeStarts.meetCeiling.reactFrom s).judgeEnd else (h.reactFrom s).newPosition

/-- The expiry of the step timeout, when it is due (R8). R8 says that a step and the expiry on one plant millisecond end at
the same show position in either order, but the effects it gives add 1 with the step first and the step timeout, 2 to 20,
with the expiry first; the model follows those effects (DESIGN CHOICE, log 45). -/
def expireStep (s : State) : State := if s.stepTimeoutDue then s.holdOver.afterHoldOver s else s

/-- STEP_TIMEOUT (R8). -/
def execStepTimeout (s : State) : Host.Outcome State Fault Refusal := happens expireStep s

/-! ### Steps and marks (R6, R11) -/

/-- Whether a step event is taken (R6). -/
def State.takesStep (s : State) : Bool :=
  (match s.seq.state with
    | .playing => true
    | .ending => true
    | _ => false) &&
  s.clock.source == .external && decide (0 ≤ s.clock.position)

/-- A step event (R6); at the plant millisecond of an expiry: log 45. -/
def State.stepEvent (s : State) : State :=
  if s.takesStep then
    let armed := { s with clock := { s.clock with armed := some s.now } }
    match s.clock.state with
    | .holdover => ({ armed with clock := { armed.clock with state := .locked } }).reactFrom s
    | .locked => (armed.movePosition 1).newPosition
    | .stopped => s
  else s

/-- The snap of a mark at a show position: to the nearest multiple of 1000, the higher one from halfway (R11). -/
def snapAmount (p : Int) : Int := if p % 1000 < 500 then -(p % 1000) else 1000 - p % 1000

/-- A mark taken in a run: the four steps of R11. -/
def State.snap (s : State) : State :=
  let d := snapAmount s.clock.position
  let t := s.movePosition d
  let n := { t with clock := { t.clock with markCount := count16 t.clock.markCount, lastSnap := d } }
  if d = 0 then n else (n.clockNotice .snap d).newPosition

/-- A mark event (R11). -/
def State.markEvent (s : State) : State :=
  if s.seq.state = .playing ∧ s.clock.source = .external then s.snap else s

/-! ### Requests -/

/-- CLOCK_CONFIG (R16). -/
def configureClock (tag : Byte) (timeout : Half) (s : State) : State :=
  if s.live then s.refuse 0x08#8 tag .notSafe
  else if 2 ≤ timeout.toNat ∧ timeout.toNat ≤ 20 then
    ({ s with clock := { s.clock with stepTimeout := timeout.toNat } }).ok 0x08#8 tag
  else s.refuse 0x08#8 tag .badArgument

/-- CLOCK_CONFIG (R16). -/
def execClockConfig (tag : Byte) (timeout : Half) (s : State) : Host.Outcome State Fault Refusal :=
  request 0x08#8 tag (configureClock tag timeout) s

/-- The fields of a CLOCK_READ after the status (R17). -/
def ShowClock.bytes (c : ShowClock) : List Byte :=
  u32 c.plantTime.toNat ++ leInt 4 c.position ++ u8 c.state.code ++ u8 c.source.code ++ u16 c.stepTimeout ++
    u16 c.markCount ++ leInt 2 c.lastSnap ++ u16 c.holdoverCount

/-- CLOCK_READ (R17). -/
def readClock (tag : Byte) (s : State) : State := s.answer 0x09#8 tag .ok s.clock.bytes

/-- CLOCK_READ (R17). -/
def execClockRead (tag : Byte) (s : State) : Host.Outcome State Fault Refusal := request 0x09#8 tag (readClock tag) s

end Sys2Proof.Machine
end

