-- ==== Sys2Proof/Decode.lean ====
section
/-! DEFINITION. From words and frames to commands: the table gives no row any bits, so no word spells a command; a
frame of the control link spells a request by its kind and payload (R185, R188, R190, and the table of requests). -/

namespace Sys2Proof

open Sys2Proof.Machine (le u8 u16 u32 ofLe half)

/-- The command that a word spells by the table's bits: the table gives no row any bits (log 34). -/
def decodeTableWord (_nbits _w : Nat) : Option Instr := none

/-! ### Fields of a payload (R190) -/

/-- One byte at an offset. -/
def byteAt (p : List Byte) (k : Nat) : Byte := p.getD k 0#8

/-- Two bytes at an offset. -/
def halfAt (p : List Byte) (k : Nat) : Half := BitVec.ofNat 16 (half p k)

/-- n bytes at an offset, as bits. -/
def bitsAt (width : Nat) (p : List Byte) (k n : Nat) : BitVec width := BitVec.ofNat width (ofLe ((p.drop k).take n))

/-- m fields of two bytes from an offset. -/
def halvesAt (p : List Byte) (k : Nat) : Nat → List Half
  | 0 => []
  | m + 1 => halfAt p k :: halvesAt p (k + 2) m

/-- A zone of a WIND_CONFIG at an offset (R121). -/
def zoneAt (p : List Byte) (k : Nat) : ZoneArgs :=
  { factors := halvesAt p k 8, drop := halfAt p (k + 16), recover := halfAt p (k + 18) }

/-! ### Requests (R188, R190) -/

/-- What the dispatch finds in a frame's kind and payload (R188, steps 3 to 5). -/
inductive Decoded where
  | unknownKind
  | badLength
  | request (i : Instr)
deriving DecidableEq, Repr

/-- A request whose fields take n bytes (R188, step 4). -/
def sized (n : Nat) (p : List Byte) (i : Instr) : Decoded := if p.length = n then .request i else .badLength

/-- The request that a frame's kind and payload spell; SHOW_APPEND and INPUT_CONFIG are not judged by length here
(R188). -/
def decodeRequest (kind tag : Byte) (p : List Byte) : Decoded :=
  let b := byteAt p
  let h := halfAt p
  match kind.toNat with
  | 0x01 => sized 0 p (.reset tag)
  | 0x02 => sized 1 p (.noticeMask tag (b 0))
  | 0x03 => sized 0 p (.saveImage tag)
  | 0x08 => sized 2 p (.clockConfig tag (h 0))
  | 0x09 => sized 0 p (.clockRead tag)
  | 0x10 =>
    sized 9 p (.showOpen tag
      { number := b 0, track := b 1, preRoll := h 2, endFade := h 4, effects := h 6, source := b 8 })
  | 0x11 => .request (.showAppend tag p)
  | 0x12 => sized 1 p (.showSeal tag (b 0))
  | 0x13 => sized 1 p (.showErase tag (b 0))
  | 0x14 => sized 1 p (.showInfo tag (b 0))
  | 0x18 => sized 1 p (.showStart tag (b 0))
  | 0x19 => sized 0 p (.showPause tag)
  | 0x1A => sized 0 p (.showResume tag)
  | 0x1B => sized 0 p (.showStop tag)
  | 0x1C => sized 0 p (.showAbort tag)
  | 0x1D => sized 2 p (.flagsSet tag (h 0))
  | 0x1E => sized 2 p (.flagsClear tag (h 0))
  | 0x1F => sized 0 p (.sequencerRead tag)
  | 0x20 =>
    sized 33 p (.channelConfig tag
      { channel := b 0, manifold := b 1, zone := b 2, type := b 3, level := b 4, kn := h 5, curve := halvesAt p 7 9,
        switchedFlow := h 25, lead := h 27, normalSlew := h 29, tripSlew := h 31 })
  | 0x21 => sized 9 p (.jetGroupConfig tag { group := b 0, members := bitsAt 48 p 1 6, lead := h 7 })
  | 0x22 => sized 7 p (.jetSet tag { index := b 0, group := b 1, height := h 2, fade := h 4, level := b 6 })
  | 0x23 => sized 1 p (.channelRead tag (b 0))
  | 0x24 => sized 1 p (.jetGroupRead tag (b 0))
  | 0x28 =>
    sized 12 p (.pumpConfig tag
      { pump := b 0, manifold := b 1, address := b 2, ratedFlow := h 3, minSpeed := h 5, ramp := h 7, lead := h 9,
        startTimeout := b 11 })
  | 0x29 => sized 6 p (.pumpSet tag { index := b 0, group := b 1, speed := h 2, ramp := h 4 })
  | 0x2A => sized 1 p (.pumpClear tag (b 0))
  | 0x2B => sized 1 p (.pumpRead tag (b 0))
  | 0x2C => sized 3 p (.manifoldConfig tag (b 0) (h 1))
  | 0x2D => sized 1 p (.manifoldRead tag (b 0))
  | 0x30 =>
    sized 100 p (.windConfig tag
      { k := h 0, thresholds := halvesAt p 2 7, hysteresis := h 16, calmHold := h 18,
        zones := [zoneAt p 20, zoneAt p 40, zoneAt p 60, zoneAt p 80] })
  | 0x31 => sized 1 p (.windBandSet tag (b 0))
  | 0x32 => sized 0 p (.windRead tag)
  | 0x38 => sized 7 p (.fixtureConfig tag { fixture := b 0, base := h 1, kind := b 3, bound := b 4, lead := h 5 })
  | 0x39 => sized 15 p (.fixtureGroupConfig tag { group := b 0, members := bitsAt 96 p 1 12, lead := h 13 })
  | 0x3A =>
    sized 9 p (.lightingConfig tag
      { dry := b 0, r := b 1, g := b 2, b := b 3, w := b 4, idleMaster := b 5, safeWhite := b 6, period := h 7 })
  | 0x3B =>
    sized 10 p (.fixtureSet tag
      { index := b 0, group := b 1, r := b 2, g := b 3, b := b 4, w := b 5, fade := h 6, master := b 8, mode := b 9 })
  | 0x3C => sized 1 p (.fixtureRead tag (b 0))
  | 0x3D => sized 1 p (.fixtureGroupRead tag (b 0))
  | 0x3E => sized 0 p (.lightingRead tag)
  | 0x40 =>
    sized 10 p (.trackDefine tag { track := b 0, start := bitsAt 32 p 1 4, frames := bitsAt 32 p 5 4, format := b 9 })
  | 0x41 => sized 1 p (.trackRead tag (b 0))
  | 0x42 => sized 3 p (.audioConfig tag (h 0) (b 2))
  | 0x43 => sized 1 p (.streamRead tag (b 0))
  | 0x44 => sized 4 p (.flashErase tag (bitsAt 32 p 0 4))
  | 0x45 => sized 260 p (.flashWrite tag (bitsAt 32 p 0 4) (p.drop 4))
  | 0x46 => sized 6 p (.flashRead tag (bitsAt 32 p 0 4) (h 4))
  | 0x48 => .request (.inputConfig tag p)
  | 0x49 =>
    sized 9 p (.reactionConfig tag
      { reaction := b 0, use := b 1, source := b 2, sourceArg := b 3, trigger := b 4, release := b 5, kind := b 6,
        arg1 := b 7, arg2 := b 8 })
  | 0x4A => sized 1 p (.tripClear tag (b 0))
  | 0x4B => sized 0 p (.inputRead tag)
  | 0x50 => sized 1 p (.setPlant tag (b 0))
  | 0x51 => sized 5 p (.outputConfig tag { line := b 0, source := b 1, sourceArg := b 2, invert := b 3, safe := b 4 })
  | 0x52 => sized 8 p (.outputsSet tag (bitsAt 64 p 0 8))
  | 0x53 => sized 8 p (.outputsClear tag (bitsAt 64 p 0 8))
  | 0x54 => sized 0 p (.outputRead tag)
  | _ => .unknownKind

/-! ### The frame of a request -/

/-- A field of two bytes (R190). -/
def halfBytes (x : Half) : List Byte := le 2 x.toNat

/-- A zone of a WIND_CONFIG (R121). -/
def ZoneArgs.bytes (z : ZoneArgs) : List Byte := z.factors.flatMap halfBytes ++ halfBytes z.drop ++ halfBytes z.recover

/-- The kind and payload of a request's frame; none for a command that is no request. The request's tag is written
beside them (R185, R190). -/
def encodeRequest : Instr → Option (Byte × Byte × List Byte)
  | .reset t => some (0x01#8, t, [])
  | .noticeMask t m => some (0x02#8, t, [m])
  | .saveImage t => some (0x03#8, t, [])
  | .clockConfig t x => some (0x08#8, t, halfBytes x)
  | .clockRead t => some (0x09#8, t, [])
  | .showOpen t a =>
    some (0x10#8, t, [a.number, a.track] ++ halfBytes a.preRoll ++ halfBytes a.endFade ++ halfBytes a.effects ++
      [a.source])
  | .showAppend t p => some (0x11#8, t, p)
  | .showSeal t n => some (0x12#8, t, [n])
  | .showErase t n => some (0x13#8, t, [n])
  | .showInfo t n => some (0x14#8, t, [n])
  | .showStart t n => some (0x18#8, t, [n])
  | .showPause t => some (0x19#8, t, [])
  | .showResume t => some (0x1A#8, t, [])
  | .showStop t => some (0x1B#8, t, [])
  | .showAbort t => some (0x1C#8, t, [])
  | .flagsSet t m => some (0x1D#8, t, halfBytes m)
  | .flagsClear t m => some (0x1E#8, t, halfBytes m)
  | .sequencerRead t => some (0x1F#8, t, [])
  | .channelConfig t a =>
    some (0x20#8, t, [a.channel, a.manifold, a.zone, a.type, a.level] ++ halfBytes a.kn ++ a.curve.flatMap halfBytes ++
      halfBytes a.switchedFlow ++ halfBytes a.lead ++ halfBytes a.normalSlew ++ halfBytes a.tripSlew)
  | .jetGroupConfig t a => some (0x21#8, t, [a.group] ++ le 6 a.members.toNat ++ halfBytes a.lead)
  | .jetSet t a => some (0x22#8, t, [a.index, a.group] ++ halfBytes a.height ++ halfBytes a.fade ++ [a.level])
  | .channelRead t n => some (0x23#8, t, [n])
  | .jetGroupRead t n => some (0x24#8, t, [n])
  | .pumpConfig t a =>
    some (0x28#8, t, [a.pump, a.manifold, a.address] ++ halfBytes a.ratedFlow ++ halfBytes a.minSpeed ++
      halfBytes a.ramp ++ halfBytes a.lead ++ [a.startTimeout])
  | .pumpSet t a => some (0x29#8, t, [a.index, a.group] ++ halfBytes a.speed ++ halfBytes a.ramp)
  | .pumpClear t n => some (0x2A#8, t, [n])
  | .pumpRead t n => some (0x2B#8, t, [n])
  | .manifoldConfig t m r => some (0x2C#8, t, [m] ++ halfBytes r)
  | .manifoldRead t m => some (0x2D#8, t, [m])
  | .windConfig t a =>
    some (0x30#8, t, halfBytes a.k ++ a.thresholds.flatMap halfBytes ++ halfBytes a.hysteresis ++
      halfBytes a.calmHold ++ a.zones.flatMap ZoneArgs.bytes)
  | .windBandSet t b => some (0x31#8, t, [b])
  | .windRead t => some (0x32#8, t, [])
  | .fixtureConfig t a => some (0x38#8, t, [a.fixture] ++ halfBytes a.base ++ [a.kind, a.bound] ++ halfBytes a.lead)
  | .fixtureGroupConfig t a => some (0x39#8, t, [a.group] ++ le 12 a.members.toNat ++ halfBytes a.lead)
  | .lightingConfig t a =>
    some (0x3A#8, t, [a.dry, a.r, a.g, a.b, a.w, a.idleMaster, a.safeWhite] ++ halfBytes a.period)
  | .fixtureSet t a =>
    some (0x3B#8, t, [a.index, a.group, a.r, a.g, a.b, a.w] ++ halfBytes a.fade ++ [a.master, a.mode])
  | .fixtureRead t n => some (0x3C#8, t, [n])
  | .fixtureGroupRead t n => some (0x3D#8, t, [n])
  | .lightingRead t => some (0x3E#8, t, [])
  | .trackDefine t a => some (0x40#8, t, [a.track] ++ le 4 a.start.toNat ++ le 4 a.frames.toNat ++ [a.format])
  | .trackRead t n => some (0x41#8, t, [n])
  | .audioConfig t g r => some (0x42#8, t, halfBytes g ++ [r])
  | .streamRead t n => some (0x43#8, t, [n])
  | .flashErase t a => some (0x44#8, t, le 4 a.toNat)
  | .flashWrite t a d => some (0x45#8, t, le 4 a.toNat ++ d)
  | .flashRead t a n => some (0x46#8, t, le 4 a.toNat ++ halfBytes n)
  | .inputConfig t p => some (0x48#8, t, p)
  | .reactionConfig t a =>
    some (0x49#8, t, [a.reaction, a.use, a.source, a.sourceArg, a.trigger, a.release, a.kind, a.arg1, a.arg2])
  | .tripClear t n => some (0x4A#8, t, [n])
  | .inputRead t => some (0x4B#8, t, [])
  | .setPlant t c => some (0x50#8, t, [c])
  | .outputConfig t a => some (0x51#8, t, [a.line, a.source, a.sourceArg, a.invert, a.safe])
  | .outputsSet t m => some (0x52#8, t, le 8 m.toNat)
  | .outputsClear t m => some (0x53#8, t, le 8 m.toNat)
  | .outputRead t => some (0x54#8, t, [])
  | .resetPin => none
  | .resetSequence .. => none
  | .flashInterfaceHold => none
  | .flashOperationDone _ => none
  | .flashTimeout => none
  | .frameComplete .. => none
  | .frameTimeout => none
  | .transmitEnd => none
  | .plantMillisecond => none
  | .stepTimeout => none
  | .manifoldUpdate _ => none
  | .pollSlot => none
  | .driveReply _ => none
  | .pollMiss => none
  | .startTimeout _ => none
  | .gateEnd => none
  | .trimStep => none
  | .lightingFrame => none
  | .outputFrame => none
  | .stopFadeEnd _ => none
  | .envelopeEvent => none
  | .refillReadComplete => none
  | .inputSample _ => none
  | .conditionSample _ => none
  | .pwmPeriod => none
  | .controlLinkByte _ => none
  | .resetPinHeldLow => none

end Sys2Proof
end

