-- ==== Sys2Proof/Machine/Budget.lean ====
section
/-! DEFINITION. The Flow Budget Arbiter: admission, available flow, allocation, the manifold update and the manifold
requests (05_pumps_manifolds_and_the_flow_budget.md, R103 to R111). -/

namespace Sys2Proof.Machine

/-! ### Allocation (R109, R110) -/

/-- What the Jet Channel Unit hands over for one channel (R76, stage 2). -/
structure Offer where
  demand : Nat
  level : Nat
  type : ChannelType
  held : Bool
deriving DecidableEq, Repr

/-- A channel's offer (R76). -/
def Channel.offer (c : Channel) : Offer :=
  { demand := c.live.demand, level := c.level, type := c.cfg.type, held := c.live.hold.any }

/-- Whether an offer is admitted: not HELD, not idle, below the admit level (R109, steps 1 to 4). -/
def Offer.admitted (o : Offer) (admitBelow : Nat) : Bool := !o.held && o.demand != 0 && decide (o.level < admitBelow)

/-- The sum of the offers' demands. -/
def demandSum (os : List Offer) : Nat := (os.map (·.demand)).sum

/-- The admitted offers of one level. -/
def atLevel (admitBelow : Nat) (os : List Offer) (l : Nat) : List Offer :=
  os.filter (fun o => o.admitted admitBelow && o.level == l)

/-- The PROPORTIONAL offers among some. -/
def proportionals (os : List Offer) : List Offer := os.filter (fun o => o.type == .proportional)

/-- How a level is served: in full, as the scaled level with its remaining flow r and its proportional demand S′, or not
at all (R109, steps 4 to 6). -/
inductive LevelPlan where
  | full
  | scaled (r share : Nat)
  | starved
deriving DecidableEq, Repr

/-- The plans of the levels, in order, from a remaining flow (R109, steps 4 and 6). -/
def planLevels (admitBelow : Nat) (os : List Offer) : List Nat → Nat → List LevelPlan
  | [], _ => []
  | l :: ls, r =>
    if demandSum (atLevel admitBelow os l) ≤ r then
      .full :: planLevels admitBelow os ls (r - demandSum (atLevel admitBelow os l))
    else .scaled r (demandSum (proportionals (atLevel admitBelow os l))) :: ls.map (fun _ => .starved)

/-- The levels that are served: 0 to 6 (R109). -/
def servedLevels : List Nat := List.range 7

/-- The grant and grant status of one offer under the levels' plans (R109). -/
def Offer.grant (o : Offer) (admitBelow : Nat) (plans : List LevelPlan) : Nat × GrantStatus :=
  if o.held then (0, .held)
  else if o.demand = 0 then (0, .idle)
  else if admitBelow ≤ o.level then (0, .excluded)
  else
    match plans.getD o.level .starved with
    | .full => (o.demand, .full)
    | .starved => (0, .starved)
    | .scaled r share =>
      match o.type with
      | .switched => (0, .starved)
      | .proportional => if share ≤ r then (o.demand, .full) else (o.demand * r / share, .short)

/-- A level's line of the summary (R110). -/
def summarize (admitted : List Offer) (p : LevelPlan) : LevelSummary :=
  { demand := demandSum admitted,
    outcome :=
      if admitted.isEmpty then .empty
      else match p with
        | .full => .full
        | .scaled .. => .scaled
        | .starved => .starved }

/-- Whether a plan is the scaled level's. -/
def LevelPlan.isScaled : LevelPlan → Bool
  | .scaled .. => true
  | _ => false

/-! ### Available flow (R108) -/

/-- A pump's flow contribution (R104, R108). -/
def Pump.flow (p : Pump) : Nat :=
  match p.live.state with
  | .faulted => 0
  | .locked => 0
  | _ => p.cfg.ratedFlow * p.live.actual / 1000

/-- The available flow of a manifold (R108). -/
def State.availableFlow (s : State) (m : Manifold) : Nat :=
  ((s.water.pumps.cells.filter (fun p => p.cfg.manifold = m)).map Pump.flow).sum

/-! ### The manifold update (R76, R106) -/

/-- The channels of manifold m after stage 1 of its update; the others as they stand (R76). -/
def State.judgedChannels (s : State) (m : Manifold) : Table Channel 48 :=
  s.jets.channels.map (fun c =>
    if c.cfg.manifold = m then
      c.judge s.now (s.wind.zones.get c.cfg.zone).applied (s.zoneOccupied c.cfg.zone.val) (s.out.mode == .safe)
    else c)

/-- The offers of manifold m's channels. -/
def offersOf (m : Manifold) (cs : Table Channel 48) : List Offer :=
  (cs.cells.filter (fun c => c.cfg.manifold = m)).map Channel.offer

/-- The allocation summary of an update (R110). -/
def summaryOf (admitBelow available usable : Nat) (os : List Offer) (plans : List LevelPlan) : Summary :=
  let granted := (os.map (fun o => (o.grant admitBelow plans).1)).sum
  { admitLevel := admitBelow, available := available, usable := usable,
    levels := servedLevels.map (fun l => summarize (atLevel admitBelow os l) (plans.getD l .starved)),
    scaled := plans.findIdx? LevelPlan.isScaled, granted := granted, unallocated := usable - granted }

/-- The update of manifold m (R76, R106 to R110). -/
def updateManifold (m : Manifold) (s : State) : State :=
  let record := s.water.manifolds.get (manifoldNum m)
  if reached s.now record.nextUpdate then
    let channels := s.judgedChannels m
    let admitBelow := s.admitLevel m
    let available := s.availableFlow m
    let usable := available - record.reserve
    let offers := offersOf m channels
    let plans := planLevels admitBelow offers servedLevels usable
    { s with
      jets := { s.jets with
        channels := channels.map (fun c =>
          if c.cfg.manifold = m then
            let g := c.offer.grant admitBelow plans
            c.take g.1 g.2
          else c) },
      water := { s.water with
        manifolds := s.water.manifolds.set (manifoldNum m)
          { record with summary := summaryOf admitBelow available usable offers plans, lastUpdate := s.now,
                        nextUpdate := record.nextUpdate + 10 } } }
  else s

/-- MANIFOLD_UPDATE (R106). -/
def execManifoldUpdate (m : Manifold) (s : State) : Host.Outcome State Fault Refusal := happens (updateManifold m) s

/-! ### Requests -/

/-- MANIFOLD_CONFIG (R105). -/
def configureManifold (tag manifold : Byte) (reserve : Half) (s : State) : State :=
  if s.live then s.refuse 0x2C#8 tag .notSafe
  else
    match manifoldOf manifold with
    | some m =>
      if reserve.toNat ≤ 16383 then
        ({ s with water := { s.water with
            manifolds := s.water.manifolds.modify (manifoldNum m) (fun r => { r with reserve := reserve.toNat }) } }).ok
          0x2C#8 tag
      else s.refuse 0x2C#8 tag .badArgument
    | none => s.refuse 0x2C#8 tag .badArgument

/-- MANIFOLD_CONFIG (R105). -/
def execManifoldConfig (tag manifold : Byte) (reserve : Half) (s : State) : Host.Outcome State Fault Refusal :=
  request 0x2C#8 tag (configureManifold tag manifold reserve) s

/-- The fields of an allocation summary, in the order of R110. -/
def Summary.bytes (x : Summary) : List Byte :=
  u8 x.admitLevel ++ u32 x.available ++ u32 x.usable ++
    x.levels.flatMap (fun l => u32 l.demand ++ u8 l.outcome.code) ++ optIndex x.scaled ++ u32 x.granted ++
    u32 x.unallocated

/-- The number of pumps of a manifold in one state (R111). -/
def State.pumpsIn (s : State) (m : Manifold) (p : PumpState) : Nat :=
  (s.water.pumps.cells.filter (fun x => x.cfg.manifold = m ∧ x.live.state = p)).length

/-- MANIFOLD_READ (R111). -/
def readManifold (tag manifold : Byte) (s : State) : State :=
  match manifoldOf manifold with
  | some m =>
    let r := s.water.manifolds.get (manifoldNum m)
    s.answer 0x2D#8 tag .ok
      (u16 r.reserve ++ r.summary.bytes ++ u32 r.lastUpdate.toNat ++
        [PumpState.stopped, .starting, .running, .stopping, .faulted, .locked].flatMap
          (fun p => u16 (s.pumpsIn m p)))
  | none => s.refuse 0x2D#8 tag .badArgument

/-- MANIFOLD_READ (R111). -/
def execManifoldRead (tag manifold : Byte) (s : State) : Host.Outcome State Fault Refusal :=
  request 0x2D#8 tag (readManifold tag manifold) s

end Sys2Proof.Machine
end

