-- ==== Sys2Proof/Machine/Drives.lean ====
section
/-! DEFINITION. The drive link and the pump requests and events that reaction sources follow
(05_pumps_manifolds_and_the_flow_budget.md: R89, R93 to R101, R104). -/

namespace Sys2Proof.Machine

/-- A pump record changed. -/
def State.onPump (s : State) (p : Fin 8) (f : Pump → Pump) : State :=
  { s with water := { s.water with pumps := s.water.pumps.modify p f } }

/-- The poll state changed. -/
def State.onPoll (s : State) (f : PollState → PollState) : State :=
  { s with water := { s.water with poll := f s.water.poll } }

/-! ### Faults (R99) -/

/-- Entry to FAULTED: the record, the PUMP notice, and the Trip Unit's view of it (R99). -/
def State.failPump (s : State) (p : Fin 8) (code : FaultCode) : State :=
  let l := (s.water.pumps.get p).live
  ((s.onPump p (fun x => { x with live := x.live.fail code })).makePending
    (.pump p.val code l.state l.actual s.now)).reactFrom s

/-! ### The poll slot (R93 to R95, R101) -/

/-- The pump whose slot follows (R93). -/
def nextSlot (p : Fin 8) : Fin 8 := ⟨(p.val + 1) % 8, Nat.mod_lt _ (by decide)⟩

/-- The slot of a configured pump: the lock, the ramp and the poll request (R94, steps 2 to 4). -/
def State.pollPump (s : State) (p : Fin 8) : State :=
  let x := ((s.water.pumps.get p).judgeLock (s.pumpLocked (s.water.pumps.get p).cfg.manifold)).ramp
  ((s.onPump p (fun _ => x)).onPoll
    (fun _ => { next := nextSlot p, awaiting := some p, request := x.request })).reactFrom s

/-- The start of the next poll slot; an unconfigured pump's passes silent (R94; log 24). -/
def startSlot (s : State) : State :=
  let p := s.water.poll.next
  if (s.water.pumps.get p).configured then s.pollPump p
  else s.onPoll (fun x => { x with next := nextSlot p, awaiting := none })

/-- POLL_SLOT (R94). -/
def execPollSlot (s : State) : Host.Outcome State Fault Refusal := happens startSlot s

/-! ### The end of an exchange (R96 to R98) -/

/-- The open exchange ended. -/
def State.closeExchange (s : State) : State := s.onPoll (fun x => { x with awaiting := none })

/-- A good reply taken: recorded, then acted on by the pump's state (R96, R97). -/
def State.takeReply (s : State) (p : Fin 8) (r : DriveAnswer) : State :=
  let t := s.onPump p (·.record r)
  if (s.water.pumps.get p).live.state.takesTarget then
    if r.faulted then t.failPump p (.drive r.code) else t.onPump p (·.transition s.now)
  else t

/-- A miss taken: counted, and LINK_LOST at three (R96). -/
def State.takeMiss (s : State) (p : Fin 8) : State :=
  let t := s.onPump p Pump.recordMiss
  let l := (t.water.pumps.get p).live
  if 3 ≤ l.misses ∧ l.state.takesTarget then t.failPump p .linkLost else t

/-- Whether bytes are a whole reply: seven of them, led by the reply's start byte (R94). -/
def wholeReply (bs : List Byte) : Bool := bs.length == 7 && bs.headD 0#8 == 0x3E#8

/-- The drive address polled last (R94). -/
def PollState.polled (x : PollState) : Nat := (x.request.getD 1 0#8).toNat

/-- A reply received whole in the open slot: good, or a miss for its checksum or address (R94, R96; log 23). -/
def receiveReply (bs : List Byte) (s : State) : State :=
  match s.water.poll.awaiting with
  | some p =>
    match driveAnswer s.water.poll.polled bs with
    | some r => s.closeExchange.takeReply p r
    | none => if wholeReply bs then s.closeExchange.takeMiss p else s
  | none => s

/-- DRIVE_REPLY (R96). -/
def execDriveReply (bs : List Byte) (s : State) : Host.Outcome State Fault Refusal := happens (receiveReply bs) s

/-- No good reply 2 ms into the slot (R94, R96). -/
def missReply (s : State) : State :=
  match s.water.poll.awaiting with
  | some p => s.closeExchange.takeMiss p
  | none => s

/-- POLL_MISS (R96). -/
def execPollMiss (s : State) : Host.Outcome State Fault Refusal := happens missReply s

/-- The expiry of a pump's start timeout, while it is STARTING (R98). -/
def expireStart (p : Fin 8) (s : State) : State :=
  let x := s.water.pumps.get p
  if x.live.state = .starting ∧ 1000 * x.cfg.startTimeout ≤ elapsed x.live.startTime s.now then
    s.failPump p .startTimeout
  else s

/-- START_TIMEOUT (R98). -/
def execStartTimeout (p : Fin 8) (s : State) : Host.Outcome State Fault Refusal := happens (expireStart p) s

/-! ### Requests -/

/-- Whether another pump has a drive address (R89, check 3). -/
def State.addressTaken (s : State) (p : Fin 8) (address : Nat) : Bool :=
  address != 0 &&
    (mapFrom (fun i (x : Pump) => i != p.val && x.cfg.address == address) 0 s.water.pumps.cells).any id

/-- The poll exchange of a pump that a PUMP_CONFIG rewrites: a pump made unconfigured receives no reply, so its open
exchange ends without a result (R88); with an address the exchange stays open and its outcome goes to the new record,
as R100 has it for a PUMP_CLEAR (DESIGN CHOICE, log 38). -/
def PollState.reconfigured (x : PollState) (p : Fin 8) (address : Nat) : PollState :=
  if address = 0 ∧ x.awaiting = some p then { x with awaiting := none } else x

/-- A pump rewritten: its configuration, its live record at the reset values, its poll exchange (R88, R89; log 38). -/
def State.rewritePump (s : State) (p : Fin 8) (cfg : PumpCfg) : State :=
  (s.onPump p (fun _ => { cfg := cfg, live := .fresh cfg })).onPoll (·.reconfigured p cfg.address)

/-- PUMP_CONFIG: the live record returns to its reset values (R89; an exchange then open: log 38). -/
def configurePump (tag : Byte) (a : PumpArgs) (s : State) : State :=
  if s.live then s.refuse 0x28#8 tag .notSafe
  else
    match below 8 a.pump, pumpCfgOf a with
    | some p, some cfg =>
      if s.addressTaken p cfg.address then s.refuse 0x28#8 tag .badArgument
      else ((s.rewritePump p cfg).reactFrom s).ok 0x28#8 tag
    | _, _ => s.refuse 0x28#8 tag .badArgument

/-- PUMP_CONFIG (R89). -/
def execPumpConfig (tag : Byte) (a : PumpArgs) (s : State) : Host.Outcome State Fault Refusal :=
  request 0x28#8 tag (configurePump tag a) s

/-- A pump returned to service (R100). -/
def PumpLive.clear (l : PumpLive) : PumpLive :=
  { l with state := .stopped, fault := none, misses := 0, target := 0, commanded := 0 }

/-- PUMP_CLEAR (R100). -/
def clearPump (tag pump : Byte) (s : State) : State :=
  match below 8 pump with
  | none => s.refuse 0x2A#8 tag .badArgument
  | some p =>
    let l := (s.water.pumps.get p).live
    if l.state ≠ .faulted then s.refuse 0x2A#8 tag .badState
    else if l.exchange ≠ .good ∨ l.ready = false then s.refuse 0x2A#8 tag .pumpFault
    else ((s.onPump p (fun x => { x with live := x.live.clear })).reactFrom s).ok 0x2A#8 tag

/-- PUMP_CLEAR (R100). -/
def execPumpClear (tag pump : Byte) (s : State) : Host.Outcome State Fault Refusal :=
  request 0x2A#8 tag (clearPump tag pump) s

/-- PUMP_READ (R104). -/
def readPump (tag pump : Byte) (s : State) : State :=
  match below 8 pump with
  | some p =>
    let x := s.water.pumps.get p
    s.answer 0x2B#8 tag .ok (x.bytes p.val x.flow)
  | none => s.refuse 0x2B#8 tag .badArgument

/-- PUMP_READ (R104). -/
def execPumpRead (tag pump : Byte) (s : State) : Host.Outcome State Fault Refusal :=
  request 0x2B#8 tag (readPump tag pump) s

end Sys2Proof.Machine
end

