-- ==== Sys2Proof/Machine/Outputs.lean ====
section
/-! DEFINITION. The Output Matrix: the plant mode, output levels, PWM, and its requests
(10_plant_mode_and_output_lines.md). -/

namespace Sys2Proof.Machine

/-! ### Output levels (R182, R183) -/

/-- What an output line shows (R190): a steady level, or a pulse train with its HIGH duty in per mille. -/
inductive Shown where
  | low
  | high
  | pwm (duty : Nat)
deriving DecidableEq, Repr

/-- A steady level. -/
def Shown.level (b : Bool) : Shown := if b then .high else .low

/-- The level of every source but CHANNEL_OPENING; `i` is the line's number (R182). -/
def State.steadyLevel (s : State) (i : Nat) : OutputSource → Bool
  | .channelOpening _ => false
  | .pumpPermit p => (s.water.pumps.get p).permit
  | .plantLive => s.live
  | .showActive => !s.idle
  | .tripAny => s.tripAny
  | .flag n => s.seq.flags.getLsbD n.val
  | .condition c => (s.trip.conditions.get c).filtered
  | .hostLevel => s.out.host.getLsbD i
  | .constLow => false
  | .constHigh => true

/-- The HIGH duty of a line of source CHANNEL_OPENING in LIVE: the opening taken up at the last period start, from 1000
when inverted; before the first period in LIVE the safe level, steady (R183; log 22). -/
def State.dutyShown (s : State) (cfg : OutputCfg) (c : Fin 48) : Nat :=
  if s.out.pwmOn then if cfg.invert then 1000 - s.out.duty.get c else s.out.duty.get c
  else if cfg.safeLevel then 1000 else 0

/-- What line i shows: its source in LIVE, its safe level in SAFE, LOW while a reset runs (R182, R183). -/
def State.shown (s : State) (i : Nat) (cfg : OutputCfg) : Shown :=
  match s.phase with
  | .running =>
    if s.live then
      match cfg.source with
      | .channelOpening c => .pwm (s.dutyShown cfg c)
      | source => Shown.level (xor (s.steadyLevel i source) cfg.invert)
    else Shown.level cfg.safeLevel
  | _ => .low

/-- The 64 lines as they stand (R182). -/
def State.lines (s : State) : List Shown := mapFrom s.shown 0 s.out.lines.cells

/-- The start of a PWM period: the lines take up the openings as they stand (R183). -/
def startPeriod (s : State) : State :=
  { s with out := { s.out with duty := s.jets.channels.map (fun c => c.live.opening), pwmOn := s.live } }

/-- PWM_PERIOD (R183). -/
def execPwmPeriod (s : State) : Host.Outcome State Fault Refusal := happens startPeriod s

/-! ### SET_PLANT (R177 to R179) -/

/-- The return to LIVE: no other state changes (R179). -/
def State.modeLive (s : State) : State := { s with out := { s.out with mode := .live } }

/-- The plant mode set by a taken SET_PLANT (R177). -/
def State.setMode (s : State) (m : PlantMode) : State :=
  match m with
  | .safe => if s.live then s.enterSafe else s
  | .live => if s.live then s else s.modeLive

/-- SET_PLANT: the reply carries the mode after the request (R177). -/
def setPlant (tag code : Byte) (s : State) : State :=
  match modeOf code with
  | none => s.refuse 0x50#8 tag .badArgument
  | some m =>
    if m = .live ∧ s.safeHeld then s.refuse 0x50#8 tag .tripLatched
    else (s.setMode m).answer 0x50#8 tag .ok (u8 m.code)

/-- SET_PLANT (R177). -/
def execSetPlant (tag code : Byte) (s : State) : Host.Outcome State Fault Refusal :=
  request 0x50#8 tag (setPlant tag code) s

/-! ### Line configuration and host levels (R181, R184) -/

/-- OUTPUT_CONFIG (R181). -/
def configureOutput (tag : Byte) (a : OutputArgs) (s : State) : State :=
  if s.live then s.refuse 0x51#8 tag .notSafe
  else
    match below 64 a.line, outputCfgOf a with
    | some i, some cfg =>
      ({ s with out := { s.out with lines := s.out.lines.set i cfg } }).ok 0x51#8 tag
    | _, _ => s.refuse 0x51#8 tag .badArgument

/-- OUTPUT_CONFIG (R181). -/
def execOutputConfig (tag : Byte) (a : OutputArgs) (s : State) : Host.Outcome State Fault Refusal :=
  request 0x51#8 tag (configureOutput tag a) s

/-- The host levels written. -/
def State.withHost (s : State) (host : BitVec 64) : State := { s with out := { s.out with host := host } }

/-- OUTPUTS_SET: the reply carries the host levels after the change (R184). -/
def setOutputs (tag : Byte) (mask : BitVec 64) (s : State) : State :=
  (s.withHost (s.out.host ||| mask)).answer 0x52#8 tag .ok (le 8 (s.out.host ||| mask).toNat)

/-- OUTPUTS_SET (R184). -/
def execOutputsSet (tag : Byte) (mask : BitVec 64) (s : State) : Host.Outcome State Fault Refusal :=
  request 0x52#8 tag (setOutputs tag mask) s

/-- OUTPUTS_CLEAR: the reply carries the host levels after the change (R184). -/
def clearOutputs (tag : Byte) (mask : BitVec 64) (s : State) : State :=
  (s.withHost (s.out.host &&& ~~~mask)).answer 0x53#8 tag .ok (le 8 (s.out.host &&& ~~~mask).toNat)

/-- OUTPUTS_CLEAR (R184). -/
def execOutputsClear (tag : Byte) (mask : BitVec 64) (s : State) : Host.Outcome State Fault Refusal :=
  request 0x53#8 tag (clearOutputs tag mask) s

/-- A shown level in three bytes (R190). -/
def Shown.bytes : Shown → List Byte
  | .low => u8 0 ++ u16 0
  | .high => u8 1 ++ u16 0
  | .pwm duty => u8 2 ++ u16 duty

/-- A line's configuration and shown level (R184). -/
def State.lineBytes (s : State) (i : Nat) (cfg : OutputCfg) : List Byte :=
  cfg.source.bytes ++ bit cfg.invert ++ bit cfg.safeLevel ++ (s.shown i cfg).bytes

/-- OUTPUT_READ (R184). -/
def readOutputs (tag : Byte) (s : State) : State :=
  s.answer 0x54#8 tag .ok
    (u8 s.out.mode.code ++ le 8 s.out.host.toNat ++ (mapFrom s.lineBytes 0 s.out.lines.cells).flatten)

/-- OUTPUT_READ (R184). -/
def execOutputRead (tag : Byte) (s : State) : Host.Outcome State Fault Refusal := request 0x54#8 tag (readOutputs tag) s

end Sys2Proof.Machine
end

