-- ==== Sys2Proof/Machine/Playback.lean ====
section
/-! DEFINITION. Output frames: slot boundaries, underruns, slip and resync, the mix, and the end of a stop fade
(08_music_playback.md: R148, R149, R151, R152, R154). -/

namespace Sys2Proof.Machine

/-! ### Slot boundaries (R149, R154) -/

/-- What a boundary's judgement does to the first frame of the new head slot (R154). -/
inductive Slip where
  | none
  | repeatFirst
  | skipFirst
deriving DecidableEq, Repr

/-- S0's error against show position (R154). -/
def State.slipError (s : State) : Int :=
  ((s.audio.streams.get 0).framesOutput : Int) - 48 * s.clock.position

/-- Whether the boundary of a stream is judged for resync and slip (R154). -/
def State.slips (s : State) (i : Fin 4) : Bool :=
  i == 0 && (s.audio.streams.get 0).state == .playing && s.seq.state == .playing && s.clock.source == .external

/-- A stream's record after a resync to frame J of its track (R154). With J above the frame count the manual states no
value for frames left to read and to play, and they are 0 (DESIGN CHOICE, log 18). -/
def Stream.jump (t : Stream) (track : Option Track) (j : Nat) : Stream :=
  let total := (track.map (·.frames)).getD 0
  { t with
    ring := [], headPos := 0, framesOutput := j, leftToRead := total - j, leftToPlay := total - j,
    nextAddress := (track.map (·.start)).getD 0 + j * t.format.frameBytes, silenceLeft := Config.slotFrames,
    silencePasses := false, boundary := false }

/-- The resync of S0: it is flushed and jumps, and goes IDLE when the target is at or beyond its end (R154). -/
def State.resync (s : State) : State :=
  let e := s.slipError
  let j := (48 * s.clock.position + 512).toNat
  let track := s.trackOf (s.audio.streams.get 0).track
  let t := ((s.discardRead 0).onStream 0 (fun t => t.jump track j)).audioNotice .resync 0
    (s.audio.streams.get 0).track e
  if (track.map (·.frames)).getD 0 ≤ j then t.idleStream 0 else t

/-- A stream's record after it passes over an unfilled head slot; `reading` says whether a read into that slot was in
progress (R149). -/
def Stream.passOver (t : Stream) (reading : Bool) : Stream :=
  { t with
    silenceLeft := Config.slotFrames, silencePasses := true, headPos := 0, boundary := false,
    nextAddress := if reading then t.nextAddress else t.nextAddress + Config.slotFrames * t.format.frameBytes,
    leftToRead := if reading then t.leftToRead else t.leftToRead - Config.slotFrames,
    underruns := count16 t.underruns }

/-- The underrun of a stream (R149). -/
def State.underrun (s : State) (i : Fin 4) : State :=
  let t := (s.discardRead i).onStream i (fun t => t.passOver (s.readingFor i))
  t.audioNotice .underrun i (t.audio.streams.get i).track 0

/-- The slip called for by an error that calls for no resync (R154, steps 2 to 4). -/
def slipFor (e : Int) : Slip := if 48 < e then .repeatFirst else if e < -48 then .skipFirst else .none

/-- The judgement of a stream's slot boundary: resync and slip, then underrun (R148, R149, R154). -/
def State.judgeBoundary (s : State) (i : Fin 4) : State × Slip :=
  if s.slips i ∧ (4800 < s.slipError ∨ s.slipError < -4800) then (s.resync, .none)
  else if (s.audio.streams.get i).ring.isEmpty then (s.underrun i, .none)
  else (s.onStream i (fun t => { t with boundary := false }), if s.slips i then slipFor s.slipError else .none)

/-! ### Giving a frame (R148) -/

/-- A stream's record after the play point passes one frame of its track; at the end of the track it goes IDLE
(R148). -/
def Stream.passFrame (t : Stream) : Stream :=
  { t with leftToPlay := t.leftToPlay - 1, framesOutput := t.framesOutput + 1 }

/-- The play point moved past the frame it stands at; after the 512th frame the slot becomes empty and a boundary
follows (R148). -/
def Stream.moveOn (t : Stream) : Stream :=
  if t.headPos + 1 < Config.slotFrames then { t.passFrame with headPos := t.headPos + 1 }
  else { t.passFrame with ring := t.ring.tail, headPos := 0, boundary := true }

/-- A frame of silence given by a stream with silence left (R148). -/
def Stream.giveSilence (t : Stream) : Stream :=
  let u := if t.silencePasses then t.passFrame else t
  { u with silenceLeft := t.silenceLeft - 1, boundary := decide (t.silenceLeft = 1),
           silencePasses := t.silencePasses && t.silenceLeft != 1 }

/-- The frame at the play point. -/
def Stream.current (t : Stream) : AudioFrame := ((t.ring.head?).bind (·[t.headPos]?)).getD ⟨0, 0⟩

/-- A frame given by a PLAYING or STOPPING stream after its boundary was judged, and its record then; a skip that passes
over the track's last frame ends the track (R148, R154). -/
def Stream.give (t : Stream) (slip : Slip) : AudioFrame × Stream :=
  if 0 < t.silenceLeft then (⟨0, 0⟩, t.giveSilence)
  else
    match slip with
    | .repeatFirst => (t.current, t)
    | .skipFirst => if t.leftToPlay ≤ 1 then (⟨0, 0⟩, t.moveOn) else (t.moveOn.current, t.moveOn.moveOn)
    | .none => (t.current, t.moveOn)

/-- Whether a stream gives frames to the mixer: PLAYING or STOPPING (R148). -/
def StreamState.sounding : StreamState → Bool
  | .playing => true
  | .stopping => true
  | _ => false

/-- A stream's share of an output frame event: its boundary, its frame, and IDLE at the end of its track (R148). The
result is its frame and the state. -/
def State.streamFrame (s : State) (i : Fin 4) : AudioFrame × State :=
  let t := s.audio.streams.get i
  if t.state.sounding then
    let (s1, slip) := if t.boundary then s.judgeBoundary i else (s, .none)
    let u := s1.audio.streams.get i
    if u.state.sounding then
      let (frame, v) := u.give slip
      let s2 := s1.onStream i (fun _ => v)
      (frame, if v.leftToPlay = 0 then s2.idleStream i else s2)
    else (⟨0, 0⟩, s1)
  else (⟨0, 0⟩, s)

/-! ### The mix (R152) -/

/-- An output sample saturated, and whether it was (R152). -/
def saturate (x : Int) : Int × Bool :=
  if 32767 < x then (32767, true) else if x < -32767 then (-32767, true) else (x, false)

/-- The output sample of a side from its mix and the master gain (R152). -/
def outputSample (mix : Int) (masterGain : Nat) : Int × Bool := saturate (roundShift (mix * masterGain) 24)

/-- The bit of a sample's two's complement with a number, 15 the most significant (R152). -/
def sampleBit (x : Int) (n : Nat) : Bool := (BitVec.ofInt 16 x).getLsbD n

/-- The 16 bit clocks of one word: the least significant bit of the sample sent before, then the bits 15 to 1 of the
word's own sample, which starts one bit clock after the word clock changed (R152). -/
def serialWord (word : Bool) (before x : Int) : List BitClock :=
  ⟨word, sampleBit before 0⟩ :: (List.range 15).map (fun k => ⟨word, sampleBit x (15 - k)⟩)

/-- The serial frame of a stereo sample, left first, after a frame whose right sample was `before` (R152; the frame
begins with the word clock's fall at the event: DESIGN CHOICE, log 43). -/
def serialFrame (before left right : Int) : List BitClock := serialWord false before left ++ serialWord true left right

/-- The stereo samples output with their serial frame, the clip flag and the block's peak (R152, R153). -/
def AudioUnit.output (a : AudioUnit) (left right : Int) : AudioUnit :=
  let l := outputSample left a.masterGain
  let r := outputSample right a.masterGain
  { a with
    outLeft := l.1, outRight := r.1, serial := serialFrame a.outRight l.1 r.1, clip := a.clip || l.2 || r.2,
    blockCount := a.blockCount + 1, blockPeak := max a.blockPeak (max l.1.natAbs r.1.natAbs) }

/-- The frames of S0 to S3, in that order, each with the gain it has at this plant time (R148, R152). -/
def State.giveFrames (s : State) : List (AudioFrame × Nat) × State :=
  let gain (i : Fin 4) : Nat := (s.audio.streams.get i).gain.valueAt s.now
  let f0 := s.streamFrame 0
  let f1 := f0.2.streamFrame 1
  let f2 := f1.2.streamFrame 2
  let f3 := f2.2.streamFrame 3
  ([(f0.1, gain 0), (f1.1, gain 1), (f2.1, gain 2), (f3.1, gain 3)], f3.2)

/-- The mix of one side (R152). -/
def mixOf (side : AudioFrame → Int) (fs : List (AudioFrame × Nat)) : Int :=
  (fs.map (fun f => side f.1 * (f.2 : Int))).sum

/-- The output frame event: boundaries and frames, the mix, the arbiter's choice and the natural end
(R47, R144, R148, R152). -/
def outputFrame (s : State) : State :=
  let given := s.giveFrames
  let t := given.2
  ({ t with audio := t.audio.output (mixOf (·.left) given.1) (mixOf (·.right) given.1) }).refill.judgeNaturalEnd

/-- OUTPUT_FRAME (R148). -/
def execOutputFrame (s : State) : Host.Outcome State Fault Refusal := happens outputFrame s

/-! ### The end of a stop fade (R151) -/

/-- Whether a stream is in a stop fade, in STOPPING or in PAUSED from it (R151). -/
def Stream.stopFading (t : Stream) : Bool :=
  match t.state with
  | .stopping => true
  | .paused => t.pausedFrom == .stopping
  | _ => false

/-- A stream whose stop fade has reached its duration goes IDLE, and the natural end is judged (R47, R151). -/
def endStopFade (i : Fin 4) (s : State) : State :=
  let t := s.audio.streams.get i
  if t.stopFading ∧ t.gain.duration ≤ t.gain.elapsedAt s.now then (s.idleStream i).judgeNaturalEnd else s

/-- STOP_FADE_END (R151). -/
def execStopFadeEnd (i : Fin 4) (s : State) : Host.Outcome State Fault Refusal := happens (endStopFade i) s

end Sys2Proof.Machine
end

