-- ==== Sys2Proof/Machine/Flash.lean ====
section
/-! DEFINITION. The flash interface: FLASH_ERASE, FLASH_WRITE, FLASH_READ, SAVE_IMAGE, and the events of the flash
(R159, R187, R197, R198). -/

namespace Sys2Proof.Machine

/-! ### The operation in progress -/

/-- The flash unit changed. -/
def State.onFlash (s : State) (f : FlashUnit → FlashUnit) : State := { s with flash := f s.flash }

/-- The request kind whose reply a job's completion makes (R189). -/
def FlashJob.kind : FlashJob → Byte
  | .erase _ => 0x44#8
  | .write .. => 0x45#8
  | .read .. => 0x46#8
  | .save .. => 0x03#8

/-- The outstanding-request flag set or cleared (R187). -/
def State.withOutstanding (s : State) (b : Bool) : State := { s with link := { s.link with outstanding := b } }

/-- The flash unit as an operation comes to hold the interface at a plant time: a save invalidates the stored image as
its erases begin (R159, R198; log 8). -/
def FlashUnit.hold (f : FlashUnit) (o : FlashOp) (now : PlantTime) : FlashUnit :=
  match o.job with
  | .save .. => { f with op := some { o with holding := true, started := now }, image := none, saves := f.saves + 1 }
  | _ => { f with op := some { o with holding := true, started := now } }

/-- A taken request on the flash: the outstanding flag is set, and the operation holds the interface at once when no
refill read is in progress (R159, R187, R198). -/
def State.beginFlash (s : State) (tag : Byte) (job : FlashJob) : State :=
  let o : FlashOp := { tag := tag, job := job, holding := false, started := s.now }
  (s.withOutstanding true).onFlash
    (fun f => if s.audio.read.isNone then f.hold o s.now else { f with op := some o })

/-- The waiting operation takes the interface, once no refill read is in progress (R159). -/
def holdInterface (s : State) : State :=
  match s.flash.op with
  | some o => if !o.holding && s.audio.read.isNone then s.onFlash (·.hold o s.now) else s
  | none => s

/-- FLASH_INTERFACE_HOLD (R159). -/
def execFlashInterfaceHold (s : State) : Host.Outcome State Fault Refusal := happens holdInterface s

/-- Completion: the reply is made, the outstanding flag cleared, the interface released, and the arbiter chooses again
(R144, R159, R188, R198). -/
def State.completeFlash (s : State) (o : FlashOp) (status : Status) (fields : List Byte) : State :=
  (((s.onFlash (fun f => { f with op := none })).withOutstanding false).answer o.job.kind o.tag status fields).refill

/-! ### What an operation leaves in the flash (R159) -/

/-- n free bytes from an address, as a failed operation leaves them (log 9). -/
def spoiledBytes (free : Nat) : Nat → Nat → List Byte
  | _, 0 => []
  | a, n + 1 => Config.failedFlash free a :: spoiledBytes free (a + 1) n

/-- A run of bytes left free because the erase or write over it failed or was cut off (R159; log 9). -/
def State.spoil (s : State) (a n : Nat) : State :=
  { s with flash := { s.flash with mem := Memory.writeAll s.flash.mem a (spoiledBytes s.free a n) },
           free := s.free + 1 }

/-! ### The steps of a save (R198) -/

/-- The number of sectors the image being written occupies (R198). -/
def FlashUnit.imageSectors (f : FlashUnit) : Nat := ((imageBytes f.saves).length + 4095) / 4096

/-- The number of pages the image being written occupies (R198). -/
def FlashUnit.imagePages (f : FlashUnit) : Nat := ((imageBytes f.saves).length + 255) / 256

/-- The 256 bytes of a page of the image being written; past the image's end they are free (R197, R198; log 8). -/
def FlashUnit.imagePage (f : FlashUnit) (k : Nat) : List Byte :=
  (List.range 256).map (fun j => (imageBytes f.saves).getD (256 * k + j) (Config.imagePadding f.saves (256 * k + j)))

/-- The flash's bytes after a step of a save that succeeded: a sector erased, or a page written (R159, R198). -/
def FlashUnit.memAfter (f : FlashUnit) (phase : SavePhase) : List Host.Cell :=
  match phase with
  | .erasing k => Memory.erase f.mem (4096 * k) 4096
  | .writing k => Memory.program f.mem (256 * k) (f.imagePage k)
  | .reading => f.mem

/-- The step after one that succeeded; none after the read-back (R198). -/
def FlashUnit.nextPhase (f : FlashUnit) : SavePhase → Option SavePhase
  | .erasing k => if k + 1 < f.imageSectors then some (.erasing (k + 1)) else some (.writing 0)
  | .writing k => if k + 1 < f.imagePages then some (.writing (k + 1)) else some .reading
  | .reading => none

/-- A step of a save that succeeded: its erase or write stands and the next step starts, or, after the read-back, the
image stands and the save completes (R198). -/
def State.advanceSave (s : State) (o : FlashOp) (image : Image) (phase : SavePhase) : State :=
  match s.flash.nextPhase phase with
  | some p =>
    s.onFlash (fun f =>
      { f with mem := f.memAfter phase, op := some { o with job := .save image p, started := s.now } })
  | none => (s.onFlash (fun f => { f with image := some image })).completeFlash o .ok []

/-! ### An operation that does not succeed (R159, R198) -/

/-- The bytes a job's erase or write under way concerns, as first address and number: those of a save's sector or page
under way, or the whole image whose read-back differs or is cut off (R159, R198; log 9). -/
def FlashUnit.concerned (f : FlashUnit) (job : FlashJob) : Nat × Nat :=
  match job with
  | .erase a => (a, 4096)
  | .write a data => (a, data.length)
  | .read .. => (0, 0)
  | .save _ (.erasing k) => (4096 * k, 4096)
  | .save _ (.writing k) => (256 * k, 256)
  | .save _ .reading => (0, 256 * f.imagePages)

/-- The flash after an operation that did not succeed: the bytes it concerned are free; a read leaves everything
(R159, R198; log 9). -/
def State.spoilJob (s : State) (job : FlashJob) : State :=
  match job with
  | .read .. => s
  | _ => s.spoil (s.flash.concerned job).1 (s.flash.concerned job).2

/-- An operation that has failed or run out of time (R159, R198). -/
def State.failFlash (s : State) (o : FlashOp) : State := (s.spoilJob o.job).completeFlash o .flashError []

/-! ### FLASH_OPERATION_DONE and FLASH_TIMEOUT (R159, R198) -/

/-- An operation that the flash reports done without error; a save's read-back when its CRC matches (R159, R198). The
bytes of a FLASH_READ stand bare after the status, without a list's count (DESIGN CHOICE, log 40). -/
def State.succeedFlash (s : State) (o : FlashOp) : State :=
  match o.job with
  | .erase a => (s.onFlash (fun f => { f with mem := Memory.erase f.mem a 4096 })).completeFlash o .ok []
  | .write a data =>
    (s.onFlash (fun f => { f with mem := Memory.program f.mem a data })).completeFlash o .ok []
  | .read a n => s.completeFlash o .ok (s.flash.bytes a n)
  | .save image phase => s.advanceSave o image phase

/-- Whether a report of failure can end a job: a FLASH_READ completes when its bytes have been read (R159; log 35). -/
def FlashJob.canFail : FlashJob → Bool
  | .read .. => false
  | _ => true

/-- The flash's report on the operation that holds the interface (R159, R198). -/
def reportFlash (ok : Bool) (s : State) : State :=
  match s.flash.op with
  | some o =>
    if o.holding then if ok || !o.job.canFail then s.succeedFlash o else s.failFlash o
    else s
  | none => s

/-- FLASH_OPERATION_DONE (R159). -/
def execFlashOperationDone (ok : Bool) (s : State) : Host.Outcome State Fault Refusal := happens (reportFlash ok) s

/-- The time allowed to the erase or write under way, in ms; a read has no limit (R159, R198). -/
def FlashJob.limit : FlashJob → Option Nat
  | .erase _ => some 1000
  | .write .. => some 10
  | .read .. => none
  | .save _ (.erasing _) => some 1000
  | .save _ (.writing _) => some 10
  | .save _ .reading => none

/-- Whether the operation has run out of its time (R159). -/
def FlashOp.expired (o : FlashOp) (now : PlantTime) : Bool :=
  o.holding &&
    match o.job.limit with
    | some ms => decide (ms ≤ elapsed o.started now)
    | none => false

/-- The expiry of an erase's or a write's limit (R159). -/
def expireFlash (s : State) : State :=
  match s.flash.op with
  | some o => if o.expired s.now then s.failFlash o else s
  | none => s

/-- FLASH_TIMEOUT (R159). -/
def execFlashTimeout (s : State) : Host.Outcome State Fault Refusal := happens expireFlash s

/-! ### Requests -/

/-- FLASH_ERASE; its BUSY reply is one of those a list of 3 discards (R159, R194). -/
def eraseFlash (tag : Byte) (address : Quad) (s : State) : State :=
  if !s.streamsIdle then s.busyReply 0x44#8 tag
  else if address.toNat % 4096 = 0 ∧ Config.imageEnd ≤ address.toNat ∧ address.toNat + 4096 ≤ Config.flashEnd then
    s.beginFlash tag (.erase address.toNat)
  else s.refuse 0x44#8 tag .badArgument

/-- FLASH_ERASE (R159). -/
def execFlashErase (tag : Byte) (address : Quad) (s : State) : Host.Outcome State Fault Refusal :=
  request 0x44#8 tag (eraseFlash tag address) s

/-- FLASH_WRITE (R159, R194). -/
def writeFlash (tag : Byte) (address : Quad) (data : List Byte) (s : State) : State :=
  if data.length ≠ 256 then s.refuse 0x45#8 tag .badLength
  else if !s.streamsIdle then s.busyReply 0x45#8 tag
  else if address.toNat % 256 = 0 ∧ Config.imageEnd ≤ address.toNat ∧ address.toNat + 256 ≤ Config.flashEnd then
    s.beginFlash tag (.write address.toNat data)
  else s.refuse 0x45#8 tag .badArgument

/-- FLASH_WRITE (R159). -/
def execFlashWrite (tag : Byte) (address : Quad) (data : List Byte) (s : State) : Host.Outcome State Fault Refusal :=
  request 0x45#8 tag (writeFlash tag address data) s

/-- FLASH_READ (R159, R194). -/
def readFlash (tag : Byte) (address : Quad) (length : Half) (s : State) : State :=
  if !s.streamsIdle then s.busyReply 0x46#8 tag
  else if 1 ≤ length.toNat ∧ length.toNat ≤ 512 ∧ address.toNat + length.toNat ≤ Config.flashEnd then
    s.beginFlash tag (.read address.toNat length.toNat)
  else s.refuse 0x46#8 tag .badArgument

/-- FLASH_READ (R159). -/
def execFlashRead (tag : Byte) (address : Quad) (length : Half) (s : State) : Host.Outcome State Fault Refusal :=
  request 0x46#8 tag (readFlash tag address length) s

/-- The configuration as it stands, which a save stores (R197, R198). -/
def State.configuration (s : State) : Image :=
  { stepTimeout := s.clock.stepTimeout, dir := s.store.dir, cues := s.store.cues,
    channels := s.jets.channels.map (·.cfg), jetGroups := s.jets.groups, pumps := s.water.pumps.map (·.cfg),
    reserves := s.water.manifolds.map (·.reserve), wind := s.wind.cfg, manualBand := s.wind.manualBand,
    fixtures := s.light.fixtures.map (·.cfg), fixtureGroups := s.light.groups, lighting := s.light.settings,
    tracks := s.audio.tracks, masterGain := s.audio.masterGain, release := s.audio.release,
    conditions := s.trip.conditions.map (·.cfg), reactions := s.trip.reactions.map (·.cfg), outputs := s.out.lines }

/-- SAVE_IMAGE (R198). -/
def saveImage (tag : Byte) (s : State) : State :=
  if s.live then s.refuse 0x03#8 tag .notSafe
  else s.beginFlash tag (.save s.configuration (.erasing 0))

/-- SAVE_IMAGE (R198). -/
def execSaveImage (tag : Byte) (s : State) : Host.Outcome State Fault Refusal := request 0x03#8 tag (saveImage tag) s

end Sys2Proof.Machine
end

