-- ==== Sys2Proof/Machine/Store.lean ====
section
/-! DEFINITION. The Show Store: opening, appending, sealing, erasing and reading shows (02_shows_and_cues.md). -/

namespace Sys2Proof.Machine

/-- The used count U (R19). -/
def ShowStore.used (x : ShowStore) : Nat := (x.dir.cells.map (·.count)).sum

/-- The lowest-numbered LOADING entry, if there is one (R29, R37). -/
def ShowStore.loading (x : ShowStore) : Option Nat := x.dir.cells.findIdx? (fun e => e.state == .loading)

/-- A directory entry written. -/
def State.setEntry (s : State) (n : Fin 16) (e : ShowEntry) : State :=
  { s with store := { s.store with dir := s.store.dir.set n e } }

/-! ### SHOW_OPEN (R29) -/

/-- SHOW_OPEN (R29). -/
def openShow (tag : Byte) (a : ShowOpenArgs) (s : State) : State :=
  if !s.idle then s.refuse 0x10#8 tag .showRunning
  else
    match below 16 a.number, showEntryOf a s.store.used with
    | some n, some e =>
      if (s.store.dir.get n).state ≠ .empty then s.refuse 0x10#8 tag .badState
      else if s.store.loading.isSome then s.refuse 0x10#8 tag .badState
      else (s.setEntry n e).answer 0x10#8 tag .ok (u16 e.first)
    | _, _ => s.refuse 0x10#8 tag .badArgument

/-- SHOW_OPEN (R29). -/
def execShowOpen (tag : Byte) (a : ShowOpenArgs) (s : State) : Host.Outcome State Fault Refusal :=
  request 0x10#8 tag (openShow tag a) s

/-! ### SHOW_APPEND (R30) -/

/-- The records of a SHOW_APPEND's payload, 1 to 32 of them (R30, check 2). -/
def appendedRecords : List Byte → Option (Byte × List (List Byte))
  | number :: rest =>
    if rest.length % 16 = 0 ∧ 16 ≤ rest.length ∧ rest.length ≤ 512 then some (number, pieces 16 32 rest) else none
  | [] => none

/-- The cues of records, or the position of the first record with a bad code (R30, check 5). -/
def decodeRecords : Nat → List (List Byte) → Except Nat (List Cue)
  | _, [] => .ok []
  | k, r :: rs =>
    match cueOf r with
    | none => .error k
    | some c =>
      match decodeRecords (k + 1) rs with
      | .ok cs => .ok (c :: cs)
      | .error j => .error j

/-- Records written at a store index: the LOADING show's range is the highest (R19, R30). -/
def ShowStore.append (x : ShowStore) (n : Fin 16) (cs : List Cue) : ShowStore :=
  let e := x.dir.get n
  { x with cues := x.cues.take (e.first + e.count) ++ cs,
           dir := x.dir.set n { e with count := e.count + cs.length } }

/-- The checks of SHOW_APPEND from the show number on, and its effect (R30). -/
def appendRecords (tag number : Byte) (records : List (List Byte)) (s : State) : State :=
  match below 16 number with
  | none => s.refuse 0x11#8 tag .badArgument
  | some n =>
    if (s.store.dir.get n).state ≠ .loading then s.refuse 0x11#8 tag .badState
    else
      match decodeRecords 0 records with
      | .error k => s.answer 0x11#8 tag .badArgument (u8 k)
      | .ok cs =>
        if Config.storeMax < s.store.used + cs.length then s.refuse 0x11#8 tag .storeFull
        else
          ({ s with store := s.store.append n cs }).answer 0x11#8 tag .ok
            (u16 ((s.store.dir.get n).count + cs.length))

/-- SHOW_APPEND (R30). -/
def appendShow (tag : Byte) (payload : List Byte) (s : State) : State :=
  if !s.idle then s.refuse 0x11#8 tag .showRunning
  else
    match appendedRecords payload with
    | none => s.refuse 0x11#8 tag .badLength
    | some (number, records) => appendRecords tag number records s

/-- SHOW_APPEND (R30). -/
def execShowAppend (tag : Byte) (payload : List Byte) (s : State) : Host.Outcome State Fault Refusal :=
  request 0x11#8 tag (appendShow tag payload) s

/-! ### SHOW_SEAL (R31 to R35) -/

/-- The order pass: the first cue whose time is above 3 600 000 or below the time before it (R32). -/
def orderFault : Nat → Nat → List Cue → Option Nat
  | _, _, [] => none
  | k, before, c :: cs => if 3600000 < c.time ∨ c.time < before then some k else orderFault (k + 1) c.time cs

/-- Whether a cue's condition argument is out of range (R27, R33). -/
def Cue.badArgument (c : Cue) : Bool :=
  match c.cond with
  | .always => false
  | .flagSet => decide (15 < c.arg)
  | .flagClear => decide (15 < c.arg)
  | .take => decide (15 < c.arg)
  | .windBelow => decide (7 < c.arg)
  | .windAtLeast => decide (7 < c.arg)
  | .zoneClear => decide (3 < c.arg)
  | .zoneOccupied => decide (3 < c.arg)

/-- Whether an AUDIO cue's stream is a fault (R33): group flag set, or an index above 3 or the declared count. -/
def Cue.badStream (c : Cue) (effects : Nat) : Bool := c.group || decide (3 < c.target) || decide (effects < c.target)

/-- Whether the target pass finds a fault at a cue (R33). -/
def Cue.badTarget (c : Cue) (effects : Nat) : Bool :=
  match c.body with
  | .jet .. => c.badArgument || decide ((if c.group then 15 else 47) < c.target)
  | .pump .. => c.badArgument || decide ((if c.group then 1 else 7) < c.target)
  | .lamp .. => c.badArgument || decide ((if c.group then 15 else 95) < c.target)
  | .audioStart track _ => c.badArgument || c.badStream effects || c.target == 0 || decide (63 < track)
  | .audioStop _ => c.badArgument || c.badStream effects
  | .audioGain .. => c.badArgument || c.badStream effects
  | .flag .. => c.badArgument
  | .mark _ => c.badArgument
  | .loop .. => false

/-- A LOOP cue with its place: its cue index and its target (R26). -/
def loopsOf (cs : List Cue) : List (Nat × Nat) :=
  (mapFrom (fun i c => match c.body with
    | .loop t _ => some (i, t)
    | _ => none) 0 cs).filterMap id

/-- The time of the cue with a cue index. -/
def timeAt (cs : List Cue) (k : Nat) : Nat := ((cs[k]?).map (·.time)).getD 0

/-- Whether the loop pass finds a fault at the LOOP cue at i with target t (R34). -/
def badLoop (cs : List Cue) (loops : List (Nat × Nat)) (i t : Nat) : Bool :=
  decide (i ≤ t) || decide (timeAt cs i < timeAt cs t + 100) ||
    loops.any (fun l => decide (l.1 < i) && decide (l.2 < t) && decide (t ≤ l.1))

/-- The loop pass: the first LOOP cue with a fault (R34). -/
def loopFault (cs : List Cue) : Option Nat :=
  ((loopsOf cs).find? (fun l => badLoop cs (loopsOf cs) l.1 l.2)).map (·.1)

/-- The loops whose range contains the cue index i, that of the LOOP cue at i among them (R35). -/
def depthAt (loops : List (Nat × Nat)) (i : Nat) : Nat :=
  (loops.filter (fun l => l.1 == i || (decide (i < l.1) && decide (l.2 ≤ i)))).length

/-- The nesting pass: the first LOOP cue inside more than four loops (R35). -/
def nestingFault (cs : List Cue) : Option Nat :=
  ((loopsOf cs).find? (fun l => decide (4 < depthAt (loopsOf cs) l.1))).map (·.1)

/-- The four passes in order: the first fault's status and cue index (R31). -/
def sealFault (cs : List Cue) (effects : Nat) : Option (Status × Nat) :=
  match orderFault 0 0 cs with
  | some k => some (.badOrder, k)
  | none =>
    match cs.findIdx? (fun c => c.badTarget effects) with
    | some k => some (.badTarget, k)
    | none =>
      match loopFault cs with
      | some k => some (.badLoop, k)
      | none => (nestingFault cs).map (fun k => (.loopNesting, k))

/-- The cues of a directory entry (R19). -/
def ShowStore.cuesOf (x : ShowStore) (e : ShowEntry) : List Cue := (x.cues.drop e.first).take e.count

/-- SHOW_SEAL (R31). -/
def sealShow (tag number : Byte) (s : State) : State :=
  if !s.idle then s.refuse 0x12#8 tag .showRunning
  else
    match below 16 number with
    | none => s.refuse 0x12#8 tag .badArgument
    | some n =>
      let e := s.store.dir.get n
      if e.state ≠ .loading then s.refuse 0x12#8 tag .badState
      else
        match sealFault (s.store.cuesOf e) e.effects with
        | some (status, k) => s.answer 0x12#8 tag status (u16 k)
        | none => (s.setEntry n { e with state := .ready }).ok 0x12#8 tag

/-- SHOW_SEAL (R31). -/
def execShowSeal (tag number : Byte) (s : State) : Host.Outcome State Fault Refusal :=
  request 0x12#8 tag (sealShow tag number) s

/-! ### SHOW_ERASE (R36) -/

/-- An entry's first cue index after k records below it, from index f, have gone; EMPTY entries keep theirs (R36). -/
def ShowEntry.lower (e : ShowEntry) (f k : Nat) : ShowEntry :=
  if e.state ≠ .empty ∧ f + k ≤ e.first then { e with first := e.first - k } else e

/-- A show emptied and the store compacted (R36). -/
def ShowStore.eraseShow (x : ShowStore) (n : Fin 16) : ShowStore :=
  let e := x.dir.get n
  if e.state = .empty then x
  else
    { cues := x.cues.take e.first ++ x.cues.drop (e.first + e.count),
      dir := (x.dir.map (fun y => y.lower e.first e.count)).set n .blank }

/-- SHOW_ERASE (R36). -/
def eraseShow (tag number : Byte) (s : State) : State :=
  if !s.idle then s.refuse 0x13#8 tag .showRunning
  else
    match below 16 number with
    | none => s.refuse 0x13#8 tag .badArgument
    | some n => ({ s with store := s.store.eraseShow n }).ok 0x13#8 tag

/-- SHOW_ERASE (R36). -/
def execShowErase (tag number : Byte) (s : State) : Host.Outcome State Fault Refusal :=
  request 0x13#8 tag (eraseShow tag number) s

/-! ### SHOW_INFO (R37) and start-up (R39) -/

/-- The fields of a SHOW_INFO after the status (R37). -/
def State.infoBytes (s : State) (n : Fin 16) : List Byte :=
  let e := s.store.dir.get n
  u8 n.val ++ u8 e.state.code ++ u16 e.first ++ u16 e.count ++ optIndex e.track ++ u16 e.preRoll ++ u16 e.endFade ++
    u16 e.effects ++ u8 e.source.code ++ u16 s.store.used ++ optIndex s.store.loading ++ optIndex s.seq.running

/-- SHOW_INFO (R37). -/
def showInfo (tag number : Byte) (s : State) : State :=
  match below 16 number with
  | some n => s.answer 0x14#8 tag .ok (s.infoBytes n)
  | none => s.refuse 0x14#8 tag .badArgument

/-- SHOW_INFO (R37). -/
def execShowInfo (tag number : Byte) (s : State) : Host.Outcome State Fault Refusal :=
  request 0x14#8 tag (showInfo tag number) s

/-- LOADING entries emptied at start-up, with their cues, which lie at the top (R39). -/
def ShowStore.dropLoading (x : ShowStore) : ShowStore :=
  let dir := x.dir.map (fun e => if e.state = .loading then .blank else e)
  { dir := dir, cues := x.cues.take ((dir.cells.map (·.count)).sum) }

end Sys2Proof.Machine
end

