-- ==== Sys2Proof/Machine/Reset.lean ====
section
/-! DEFINITION. Reset and start-up (R1, R39, R169, R176, R197, R199). -/

namespace Sys2Proof.Machine

/-- Whether a save is the job (R198). -/
def FlashJob.isSave : FlashJob → Bool
  | .save .. => true
  | _ => false

/-- The stored image after a reset cut a job off: a save, from its taking on, leaves no valid image (R198). -/
def FlashUnit.imageAfter (f : FlashUnit) (job : FlashJob) : Option Image := if job.isSave then none else f.image

/-- A flash operation cut off by a reset: an erase or a write under way leaves free bytes (log 9), and a save leaves an
image that no start-up finds valid, whether it held the interface or still waited for it, its first sector then free
(R198; log 8). -/
def State.abandonFlash (s : State) : State :=
  match s.flash.op with
  | some o =>
    (if o.holding || o.job.isSave then s.spoilJob o.job else s).onFlash
      (fun f => { f with op := none, image := f.imageAfter o.job })
  | none => s

/-- The lines silent: nothing on the control link and no frame of it under way (R199), and the lighting line at its mark
level (R132). -/
def State.silence (s : State) : State :=
  { s with link := { s.link with line := none, rx := .hunting }, light := { s.light with line := [] } }

/-- The blocks at the reset values their chapters give, with a configuration, at plant time `now`; the Show Store and the
Trip Unit take theirs from what start-up loads and samples (R39, R169, R199, step 2). -/
def State.freshBlocks (s : State) (img : Image) (now : PlantTime) : State :=
  { s with
    clock := .fresh img.stepTimeout now,
    seq := .fresh,
    jets := .fresh img,
    water := .fresh img now,
    wind := .fresh img.wind img.manualBand (hasWindPulse img.conditions) now,
    light := .fresh img now,
    audio := .fresh img,
    out := .fresh img.outputs }

/-- The reset begins: plant time 0 and the mode SAFE, without an entry to SAFE: every block takes its reset values
instead, so that the sequencer is IDLE and every pump's target and commanded speed are 0 from here on; the configuration
stands until start-up loads one (R1, R176, R178, R199, steps 1 and 2; log 4). -/
def State.beginReset (s : State) : State :=
  { s.abandonFlash.freshBlocks s.configuration 0 with phase := .resetting, link := .cleared }

/-- The reset pin driven low: the 648 is held in reset (R199). -/
def holdInReset (s : State) : State := { s.abandonFlash.silence with phase := .heldLow }

/-- RESET_PIN_HELD_LOW (R199). -/
def execResetPinHeldLow (s : State) : Host.Outcome State Fault Refusal := .next (holdInReset s)

/-- The release of the reset pin after it was held low (R199). -/
def releasePin (s : State) : State := if s.phase = .heldLow then s.beginReset else s

/-- RESET_PIN (R199). -/
def execResetPin (s : State) : Host.Outcome State Fault Refusal := .next (releasePin s)

/-- The latches as start-up sets them, from the source levels start-up leaves (R169, step 2). -/
def State.seedLatches (s : State) : State :=
  { s with trip := { s.trip with
      reactions := s.trip.reactions.map
        (fun r => { r with latch := r.cfg.seedLatch (s.sourceLevel r.cfg.source) }) } }

/-- The state at the end of a start-up with a configuration, at plant time `now`, given the strap and the first input
sample (R199, steps 1 to 5). The flash, the free counter and the queue of commands outlive a reset. -/
def State.started (s : State) (img : Image) (loaded : Bool) (baud : Baud) (lines : BitVec 32) : State :=
  State.seedLatches
    { s.freshBlocks img s.now with
      phase := .running, baud := baud,
      store := ShowStore.dropLoading { dir := img.dir, cues := img.cues },
      trip := .fresh img lines,
      link := .fresh loaded }

/-- Start-up once a reset has begun: the stored image when a valid one stands in flash, else the factory defaults
(R197, R199). -/
def startUp (baud : Baud) (lines : BitVec 32) (s : State) : State :=
  if s.phase = .resetting then s.started (s.flash.image.getD Image.factory) s.flash.image.isSome baud lines else s

/-- RESET_SEQUENCE (R199). -/
def execResetSequence (baud : Baud) (lines : BitVec 32) (s : State) : Host.Outcome State Fault Refusal :=
  .next (startUp baud lines s)

end Sys2Proof.Machine
end

