-- ==== Sys2Proof/Machine/RunRequests.lean ====
section
/-! DEFINITION. The Sequencer's requests (03_the_sequencer.md: R41, R43 to R45, R49, R61, R66). -/

namespace Sys2Proof.Machine

/-! ### SHOW_START (R41) -/

/-- The run record and the reader at a start: steps 1 and 2 of R41. -/
def Sequencer.begin (q : Sequencer) (number : Nat) (e : ShowEntry) : Sequencer :=
  { q with
    running := some number,
    run := { first := e.first, count := e.count, track := e.track, preRoll := e.preRoll, endFade := e.endFade,
             effects := e.effects },
    loopStack := [], cursor := 0, loopOffset := 0, lateCount := 0, skipCount := 0, issuedCount := 0, lastMark := none,
    endReason := .none }

/-- The Show Clock at a start (R3; step 3 of R41). -/
def ShowClock.begin (c : ShowClock) (e : ShowEntry) : ShowClock :=
  { c with
    position := -(e.preRoll : Int), source := e.source,
    state := match e.source with
      | .onCrystal => .locked
      | .external => .holdover
    markCount := 0, lastSnap := 0, holdoverCount := 0, armed := none }

/-- The underrun counts and the clip flag zeroed (step 4 of R41). -/
def State.clearAudioCounts (s : State) : State :=
  { s with audio := { s.audio with streams := s.audio.streams.map (fun t => { t with underruns := 0 }), clip := false } }

/-- S0 started on the show's music, if it has any (R146; step 4 of R41). -/
def State.startMusic (s : State) (track : Option Nat) : State :=
  match track with
  | some n =>
    match s.trackOf n with
    | some t => s.startStream 0 n t 0 4096
    | none => s
  | none => s

/-- The start of a run: the six steps of R41. -/
def State.startRun (s : State) (number : Nat) (e : ShowEntry) : State :=
  ((({ s with seq := s.seq.begin number e, clock := s.clock.begin e }).clearAudioCounts.splitPool e.effects).startMusic
    e.track).enterState (if e.preRoll = 0 then .playing else .preroll)

/-- Whether a show's music track is a number whose entry is not defined (R41, check 5). -/
def State.lacksTrack (s : State) (track : Option Nat) : Bool :=
  match track with
  | some n => (s.trackOf n).isNone
  | none => false

/-- SHOW_START; the Trip Unit takes the change of clock state before the reader starts (R9, R41; log 13). -/
def startShow (tag number : Byte) (s : State) : State :=
  if !s.idle then s.refuse 0x18#8 tag .showRunning
  else
    match below 16 number with
    | none => s.refuse 0x18#8 tag .badArgument
    | some n =>
      if !s.live then s.refuse 0x18#8 tag .plantSafe
      else
        let e := s.store.dir.get n
        if e.state ≠ .ready then s.refuse 0x18#8 tag .notReady
        else if s.lacksTrack e.track then s.refuse 0x18#8 tag .noTrack
        else (((s.startRun n.val e).reactFrom s).settle).ok 0x18#8 tag

/-- SHOW_START (R41). -/
def execShowStart (tag number : Byte) (s : State) : Host.Outcome State Fault Refusal :=
  request 0x18#8 tag (startShow tag number) s

/-! ### Pause, resume, stop, abort -/

/-- SHOW_PAUSE (R43). -/
def pauseShow (tag : Byte) (s : State) : State :=
  if s.seq.state.issuing then s.pauseRun.ok 0x19#8 tag else s.refuse 0x19#8 tag .badState

/-- SHOW_PAUSE (R43). -/
def execShowPause (tag : Byte) (s : State) : Host.Outcome State Fault Refusal := request 0x19#8 tag (pauseShow tag) s

/-- The state a run was paused from. -/
def PausedFrom.back : PausedFrom → SeqState
  | .preroll => .preroll
  | .playing => .playing

/-- The resume (R10, R44, R155). -/
def State.resumeRun (s : State) : State :=
  ((s.armIfFollowing.onStreams Stream.resume).enterState s.seq.pausedFrom.back).settle

/-- SHOW_RESUME (R44). -/
def resumeShow (tag : Byte) (s : State) : State :=
  if s.seq.state = .paused then s.resumeRun.ok 0x1A#8 tag else s.refuse 0x1A#8 tag .badState

/-- SHOW_RESUME (R44). -/
def execShowResume (tag : Byte) (s : State) : Host.Outcome State Fault Refusal := request 0x1A#8 tag (resumeShow tag) s

/-- SHOW_STOP (R45). -/
def stopShow (tag : Byte) (s : State) : State :=
  if s.seq.state.reading then (s.beginEnding .stopRequest).ok 0x1B#8 tag else s.refuse 0x1B#8 tag .badState

/-- SHOW_STOP (R45). -/
def execShowStop (tag : Byte) (s : State) : Host.Outcome State Fault Refusal := request 0x1B#8 tag (stopShow tag) s

/-- SHOW_ABORT (R49). -/
def abortShow (tag : Byte) (s : State) : State :=
  if s.idle then s.refuse 0x1C#8 tag .badState else (s.abort .abortRequest).ok 0x1C#8 tag

/-- SHOW_ABORT (R49). -/
def execShowAbort (tag : Byte) (s : State) : Host.Outcome State Fault Refusal := request 0x1C#8 tag (abortShow tag) s

/-! ### Flags and read-back -/

/-- FLAGS_SET: the reply carries the flags after the change (R61). -/
def setFlags (tag : Byte) (mask : Half) (s : State) : State :=
  let t := s.changeFlags 0 mask
  t.answer 0x1D#8 tag .ok (u16 t.seq.flags.toNat)

/-- FLAGS_SET (R61). -/
def execFlagsSet (tag : Byte) (mask : Half) (s : State) : Host.Outcome State Fault Refusal :=
  request 0x1D#8 tag (setFlags tag mask) s

/-- FLAGS_CLEAR: the reply carries the flags after the change (R61). -/
def clearFlags (tag : Byte) (mask : Half) (s : State) : State :=
  let t := s.changeFlags mask 0
  t.answer 0x1E#8 tag .ok (u16 t.seq.flags.toNat)

/-- FLAGS_CLEAR (R61). -/
def execFlagsClear (tag : Byte) (mask : Half) (s : State) : Host.Outcome State Fault Refusal :=
  request 0x1E#8 tag (clearFlags tag mask) s

/-- The head of the queue as an optional field: issue time and cue index (R66, R190). -/
def headBytes : List QueueEntry → List Byte
  | e :: _ => u8 1 ++ leInt 4 e.issueTime ++ u16 e.cue
  | [] => u8 0 ++ leInt 4 0 ++ u16 0

/-- The last mark as an optional field (R66, R190; log 15). -/
def markBytes : Option Nat → List Byte
  | some n => u8 1 ++ u8 n
  | none => u8 0 ++ u8 0

/-- The fields of a SEQUENCER_READ after the status (R66). -/
def Sequencer.bytes (q : Sequencer) : List Byte :=
  u8 q.state.code ++ u8 q.pausedFrom.code ++ optIndex q.running ++ u8 q.endReason.code ++ leInt 4 q.endPosition ++
    u16 q.cursor ++ leInt 4 q.loopOffset ++ u16 q.loopStack.length ++ u8 q.loopStack.length ++
    q.loopStack.flatMap (fun e => u16 e.cue ++ u8 e.remaining) ++ u16 q.queue.length ++
    u16 (q.queue.filter (·.late)).length ++ headBytes q.queue ++ u16 q.flags.toNat ++ u16 q.lateCount ++
    u16 q.skipCount ++ u16 q.issuedCount ++ markBytes q.lastMark

/-- SEQUENCER_READ (R66). -/
def readSequencer (tag : Byte) (s : State) : State := s.answer 0x1F#8 tag .ok s.seq.bytes

/-- SEQUENCER_READ (R66). -/
def execSequencerRead (tag : Byte) (s : State) : Host.Outcome State Fault Refusal :=
  request 0x1F#8 tag (readSequencer tag) s

end Sys2Proof.Machine
end

