-- ==== Sys2Proof/Machine/Wind.lean ====
section
/-! DEFINITION. The Wind Governor: gates, speeds, the band, zone trims, and its requests (06_wind_governor.md). -/

namespace Sys2Proof.Machine

/-! ### The band (R115, R116, R119) -/

/-- Whether the Governor is in AUTOMATIC: a condition carries the WIND_PULSE role (R117). -/
def State.automatic (s : State) : Bool := hasWindPulse (s.trip.conditions.map (·.cfg))

/-- The Wind Governor changed. -/
def State.onWind (s : State) (f : WindGov → WindGov) : State := { s with wind := f s.wind }

/-- The Governor after a change to a new band: the count and every zone's target (R119, steps 1 and 2). -/
def WindGov.toBand (g : WindGov) (new : Nat) : WindGov :=
  { g with
    band := new, bandChanges := count16 g.bandChanges,
    zones := Table.zipWith (fun (c : ZoneCfg) (z : ZoneTrim) => { z with target := c.factor new, sourceBand := new })
      g.cfg.zones g.zones }

/-- A band change: R119 in order, then the Trip Unit takes the change of its sources (R119, R165). -/
def State.changeBand (s : State) (cause : WindCause) (new : Nat) : State :=
  let t := (s.onWind (·.toBand new)).makePending (.wind cause s.wind.band new s.wind.lastAverage s.now)
  t.reactFrom s

/-- Threshold Tb, for b from 1 to 7 (R121). -/
def WindCfg.threshold (c : WindCfg) (b : Nat) : Nat := c.thresholds.getD (b - 1) 0

/-- The highest band from 1 to 7 whose threshold the average reaches, else 0 (R115). -/
def WindCfg.bandFor (c : WindCfg) (a : Nat) : Nat :=
  ((List.range 7).filter (fun i => decide (c.threshold (i + 1) ≤ a))).foldl (fun m i => max m (i + 1)) 0

/-- A gate's speed from its count (R114). -/
def gateSpeed (k n : Nat) : Nat := min 999 ((n * k + 50) / 100)

/-- The average of a history (R114, step 2). -/
def SpeedHistory.average (h : SpeedHistory) : Nat := (h.newest + h.middle + h.oldest) / 3

/-- The fall rule (R116). -/
def State.judgeFall (s : State) : State :=
  let g := s.wind
  if g.band = 0 then s.onWind (fun g => { g with calm := 0 })
  else if g.lastAverage + g.cfg.hysteresis < g.cfg.threshold g.band then
    if g.calm + 1 = g.cfg.calmHold then (s.onWind (fun g => { g with calm := 0 })).changeBand .fall (g.band - 1)
    else s.onWind (fun g => { g with calm := g.calm + 1 })
  else s.onWind (fun g => { g with calm := 0 })

/-- The rise rule, and the fall rule when the band did not rise (R115, R116). -/
def State.judgeBand (s : State) : State :=
  let g := s.wind
  if g.band < 7 ∧ g.cfg.threshold (g.band + 1) ≤ g.lastAverage then
    (s.onWind (fun g => { g with calm := 0 })).changeBand .rise (g.cfg.bandFor g.lastAverage)
  else s.judgeFall

/-! ### Gates (R113, R114) -/

/-- The speed of the closing gate taken into the history and the average (R114, steps 1 and 2). -/
def WindGov.closeGate (g : WindGov) : WindGov :=
  let h : SpeedHistory := ⟨gateSpeed g.cfg.k g.gateCount, g.history.newest, g.history.middle⟩
  { g with history := h, lastAverage := h.average }

/-- A gate opened at a plant time (R113). -/
def WindGov.openGate (g : WindGov) (now : PlantTime) : WindGov := { g with gateCount := 0, gateStart := now }

/-- The gate end, once 1000 ms have elapsed (R113, R114). -/
def endGate (s : State) : State :=
  if 1000 ≤ elapsed s.wind.gateStart s.now then
    let closed := s.onWind WindGov.closeGate
    let judged := if s.automatic then closed.judgeBand else closed
    judged.onWind (·.openGate s.now)
  else s

/-- GATE_END (R114). -/
def execGateEnd (s : State) : Host.Outcome State Fault Refusal := happens endGate s

/-- A pulse event (R113). -/
def State.pulseEvent (s : State) : State := s.onWind (fun g => { g with gateCount := count16 g.gateCount })

/-! ### Trim steps (R120) -/

/-- A zone's applied factor moved toward its target (R120). -/
def ZoneTrim.step (z : ZoneTrim) (c : ZoneCfg) : ZoneTrim :=
  { z with applied := moveToward z.applied z.target c.recover c.drop }

/-- The trim step, when its time is reached (R120). -/
def stepTrims (s : State) : State :=
  if reached s.now s.wind.nextTrim then
    s.onWind (fun g => { g with
      zones := Table.zipWith (fun (c : ZoneCfg) (z : ZoneTrim) => z.step c) g.cfg.zones g.zones,
      nextTrim := g.nextTrim + 100 })
  else s

/-- TRIM_STEP (R120). -/
def execTrimStep (s : State) : Host.Outcome State Fault Refusal := happens stepTrims s

/-! ### Changes of mode (R117) -/

/-- The Governor takes a change of mode that new roles cause; `was` says whether it was in AUTOMATIC. On the way to
MANUAL the open gate runs on with count 0 (R113, R117). -/
def State.takeMode (s : State) (was : Bool) : State :=
  if s.automatic then
    if was then s
    else s.onWind (fun g => { g with history := ⟨0, 0, 0⟩, calm := 0, gateCount := 0, gateStart := s.now })
  else if was then
    let calm := s.onWind (fun g => { g with calm := 0, gateCount := 0 })
    if s.wind.manualBand = s.wind.band then calm else calm.changeBand .mode s.wind.manualBand
  else s

/-! ### Requests -/

/-- The Governor after a WIND_CONFIG (R121). -/
def WindGov.configure (g : WindGov) (cfg : WindCfg) : WindGov :=
  { g with
    cfg := cfg, calm := 0,
    zones := Table.zipWith
      (fun (c : ZoneCfg) (z : ZoneTrim) => { z with target := c.factor g.band, sourceBand := g.band })
      cfg.zones g.zones }

/-- WIND_CONFIG (R121). -/
def configureWind (tag : Byte) (a : WindArgs) (s : State) : State :=
  if !a.wf then s.refuse 0x30#8 tag .badLength
  else if s.live then s.refuse 0x30#8 tag .notSafe
  else
    match windCfgOf a with
    | some cfg => (s.onWind (·.configure cfg)).ok 0x30#8 tag
    | none => s.refuse 0x30#8 tag .badArgument

/-- WIND_CONFIG (R121). -/
def execWindConfig (tag : Byte) (a : WindArgs) (s : State) : Host.Outcome State Fault Refusal :=
  request 0x30#8 tag (configureWind tag a) s

/-- The manual band and the band set in MANUAL (R118). -/
def State.setManualBand (s : State) (b : Nat) : State :=
  let t := s.onWind (fun g => { g with manualBand := b })
  if b = s.wind.band then t else t.changeBand .manual b

/-- WIND_BAND_SET (R118). -/
def setBand (tag band : Byte) (s : State) : State :=
  if s.automatic then s.refuse 0x31#8 tag .badState
  else (s.setManualBand (min band.toNat 7)).answer 0x31#8 tag .ok (u8 (min band.toNat 7))

/-- WIND_BAND_SET (R118). -/
def execWindBandSet (tag band : Byte) (s : State) : Host.Outcome State Fault Refusal :=
  request 0x31#8 tag (setBand tag band) s

/-- A zone's trim configuration (R120). -/
def ZoneCfg.bytes (z : ZoneCfg) : List Byte := z.factors.flatMap u16 ++ u16 z.drop ++ u16 z.recover

/-- A zone's live trim fields (R122). -/
def ZoneTrim.bytes (z : ZoneTrim) : List Byte := u16 z.applied ++ u16 z.target ++ u8 z.sourceBand

/-- The milliseconds elapsed in the open gate, 0 to 999: a gate that is due to end and has not ended yet shows 999
(R122; DESIGN CHOICE, log 39). -/
def State.gateElapsed (s : State) : Nat := min 999 (elapsed s.wind.gateStart s.now)

/-- The fields of a WIND_READ after the status (R122). -/
def State.windBytes (s : State) : List Byte :=
  let g := s.wind
  u8 (if s.automatic then 0 else 1) ++ u8 g.band ++ u8 g.manualBand ++ u16 g.gateCount ++
    u16 s.gateElapsed ++ u16 g.history.newest ++ u16 g.history.middle ++ u16 g.history.oldest ++
    u16 g.lastAverage ++ u16 g.calm ++ u16 g.bandChanges ++ u16 g.cfg.k ++ g.cfg.thresholds.flatMap u16 ++
    u16 g.cfg.hysteresis ++ u16 g.cfg.calmHold ++ g.zones.cells.flatMap ZoneTrim.bytes ++
    g.cfg.zones.cells.flatMap ZoneCfg.bytes

/-- WIND_READ (R122). -/
def readWind (tag : Byte) (s : State) : State := s.answer 0x32#8 tag .ok s.windBytes

/-- WIND_READ (R122). -/
def execWindRead (tag : Byte) (s : State) : Host.Outcome State Fault Refusal := request 0x32#8 tag (readWind tag) s

end Sys2Proof.Machine
end

