-- ==== Sys2Proof/Machine/Trip.lean ====
section
/-! DEFINITION. The Trip Unit: input samples, condition filters, roles, reactions' latches, and its requests
(09_field_inputs_trips_and_reactions.md). -/

namespace Sys2Proof.Machine

/-! ### Samples and filters (R160 to R163) -/

/-- A condition counts an input sample event toward its prescale; its sample is due when the count has run out
(R162; log 25). -/
def Condition.countSample (c : Condition) : Condition :=
  if c.prescaleCount = c.cfg.prescale then { c with prescaleCount := 0, due := true }
  else { c with prescaleCount := c.prescaleCount + 1 }

/-- The input sample event (R160, R162). -/
def sampleInputs (lines : BitVec 32) (s : State) : State :=
  { s with trip := { s.trip with samples := lines, conditions := s.trip.conditions.map Condition.countSample } }

/-- INPUT_SAMPLE (R160). -/
def execInputSample (lines : BitVec 32) (s : State) : Host.Outcome State Fault Refusal :=
  happens (sampleInputs lines) s

/-- The number of samples of a history that stand opposite to a level (R162, R175). -/
def oppositeCount (history : List Bool) (level : Bool) : Nat := (history.filter (· != level)).length

/-- The filter's judgement of a condition sample (R162). -/
def Condition.filter (c : Condition) (x : Bool) : Condition :=
  if c.cfg.window = 0 then { c with filtered := x }
  else
    let history := x :: c.history.dropLast
    { c with
      history := history,
      filtered := if c.cfg.threshold ≤ oppositeCount history c.filtered then !c.filtered else c.filtered }

/-- A condition changed. -/
def State.onCondition (s : State) (c : Fin 24) (f : Condition → Condition) : State :=
  { s with trip := { s.trip with conditions := s.trip.conditions.modify c f } }

/-- A rising transition served to the block of the condition's role (R163). -/
def State.serveRole (s : State) (r : Role) : State :=
  match r with
  | .general => s
  | .clockStep => s.stepEvent
  | .clockMark => s.markEvent
  | .windPulse => s.pulseEvent

/-- A rising transition of a condition between two states is served to its role (R163). -/
def State.serveIfRisen (s before : State) (c : Fin 24) : State :=
  if (before.trip.conditions.get c).filtered = false ∧ (s.trip.conditions.get c).filtered = true then
    s.serveRole (s.trip.conditions.get c).cfg.role
  else s

/-- The condition sample event, when the condition's sample is due: the filter, then the reactions, then the role
(R162, R163; log 13, log 25). -/
def sampleCondition (c : Fin 24) (s : State) : State :=
  let x := s.trip.conditions.get c
  if x.due then
    let t := s.onCondition c (fun x => { x.filter (x.cfg.sample s.trip.samples) with due := false })
    (t.reactFrom s).serveIfRisen s c
  else s

/-- CONDITION_SAMPLE (R162). -/
def execConditionSample (c : Fin 24) (s : State) : Host.Outcome State Fault Refusal := happens (sampleCondition c) s

/-! ### INPUT_CONFIG (R164) -/

/-- The settings of an INPUT_CONFIG's payload, 1 to 24 of them (R164, check 2). -/
def settingsOf (payload : List Byte) : Option (List SettingArgs) :=
  if payload.length % 8 = 0 ∧ 8 ≤ payload.length ∧ payload.length ≤ 192 then
    some ((pieces 8 24 payload).map settingOf)
  else none

/-- A setting's condition and configuration, where its fields are in range (R164, check 3). -/
def settingFields (a : SettingArgs) : Option (Fin 24 × ConditionCfg) := do
  let c ← below 24 a.condition
  let cfg ← conditionCfgOf a
  some (c, cfg)

/-- The settings' conditions and configurations, none named twice (R164, check 3). -/
def settingList : List SettingArgs → Option (List (Fin 24 × ConditionCfg))
  | [] => some []
  | a :: as => do
    let x ← settingFields a
    let xs ← settingList as
    if xs.any (fun y => y.1 == x.1) then none else some (x :: xs)

/-- The conditions' configurations with a list of settings applied (R164). -/
def applySettings (cs : Table ConditionCfg 24) (xs : List (Fin 24 × ConditionCfg)) : Table ConditionCfg 24 :=
  xs.foldl (fun t x => t.set x.1 x.2) cs

/-- Whether another condition holds the special role that a condition holds (R164, check 4). -/
def roleShared (cs : Table ConditionCfg 24) (c : Fin 24) : Bool :=
  (cs.get c).role != .general &&
    (mapFrom (fun i (x : ConditionCfg) => i != c.val && x.role == (cs.get c).role) 0 cs.cells).any id

/-- The condition that a ROLE_TAKEN reply carries: that of the last setting whose special role another condition would
also hold (R164, check 4). -/
def roleClash (cs : Table ConditionCfg 24) (xs : List (Fin 24 × ConditionCfg)) : Option (Fin 24) :=
  ((xs.filter (fun x => roleShared (applySettings cs xs) x.1)).getLast?).map (·.1)

/-- The named conditions with their new fields, seeded with one condition sample (R164). -/
def State.seedSettings (s : State) (xs : List (Fin 24 × ConditionCfg)) : State :=
  { s with trip := { s.trip with
      conditions := xs.foldl (fun t x => t.set x.1 (.seeded x.2 s.trip.samples)) s.trip.conditions } }

/-- The settings taken: the seeded transitions go to the reactions and then to the roles in list order, and the Wind
Governor takes its change of mode (R117, R163, R164; log 30). -/
def State.takeSettings (s : State) (xs : List (Fin 24 × ConditionCfg)) : State :=
  (xs.foldl (fun t x => t.serveIfRisen s x.1) ((s.seedSettings xs).reactFrom s)).takeMode s.automatic

/-- INPUT_CONFIG (R164). -/
def configureInputs (tag : Byte) (payload : List Byte) (s : State) : State :=
  if s.live then s.refuse 0x48#8 tag .notSafe
  else
    match settingsOf payload with
    | none => s.refuse 0x48#8 tag .badLength
    | some as =>
      match settingList as with
      | none => s.refuse 0x48#8 tag .badArgument
      | some xs =>
        match roleClash (s.trip.conditions.map (·.cfg)) xs with
        | some c => s.answer 0x48#8 tag .roleTaken (u8 c.val)
        | none => (s.takeSettings xs).ok 0x48#8 tag

/-- INPUT_CONFIG (R164). -/
def execInputConfig (tag : Byte) (payload : List Byte) (s : State) : Host.Outcome State Fault Refusal :=
  request 0x48#8 tag (configureInputs tag payload) s

/-! ### REACTION_CONFIG and TRIP_CLEAR (R168, R170) -/

/-- A reaction changed. -/
def State.onReaction (s : State) (i : Fin 32) (f : Reaction → Reaction) : State :=
  { s with trip := { s.trip with reactions := s.trip.reactions.modify i f } }

/-- A reaction's fields replaced, its latch set afresh; this makes no activation (R169, R170). -/
def State.rewriteReaction (s : State) (i : Fin 32) (cfg : ReactionCfg) : State :=
  s.onReaction i (fun _ => { cfg := cfg, latch := cfg.seedLatch (s.sourceLevel cfg.source) })

/-- REACTION_CONFIG: the reply carries the reaction's active state (R170). -/
def configureReaction (tag : Byte) (a : ReactionArgs) (s : State) : State :=
  if s.live then s.refuse 0x49#8 tag .notSafe
  else
    match below 32 a.reaction, reactionCfgOf a with
    | some i, some cfg =>
      if s.sourceHeld (s.trip.reactions.get i) then s.refuse 0x49#8 tag .sourceActive
      else
        let t := s.rewriteReaction i cfg
        t.answer 0x49#8 tag .ok (bit (t.isActive (t.trip.reactions.get i)))
    | _, _ => s.refuse 0x49#8 tag .badArgument

/-- REACTION_CONFIG (R170). -/
def execReactionConfig (tag : Byte) (a : ReactionArgs) (s : State) : Host.Outcome State Fault Refusal :=
  request 0x49#8 tag (configureReaction tag a) s

/-- TRIP_CLEAR: the reply carries the latch and the source level after the request (R168). -/
def clearTrip (tag reaction : Byte) (s : State) : State :=
  match below 32 reaction with
  | none => s.refuse 0x4A#8 tag .badArgument
  | some i =>
    let r := s.trip.reactions.get i
    if r.cfg.inUse = false ∨ r.cfg.trigger.isEdge = false then s.refuse 0x4A#8 tag .badState
    else if s.sourceHeld r then s.refuse 0x4A#8 tag .sourceActive
    else
      (s.onReaction i (fun r => { r with latch := false })).answer 0x4A#8 tag .ok
        (bit false ++ bit (s.sourceLevel r.cfg.source))

/-- TRIP_CLEAR (R168). -/
def execTripClear (tag reaction : Byte) (s : State) : Host.Outcome State Fault Refusal :=
  request 0x4A#8 tag (clearTrip tag reaction) s

/-! ### INPUT_READ (R175) -/

/-- The configuration fields of a condition, in the order of R161. -/
def ConditionCfg.bytes (c : ConditionCfg) : List Byte :=
  c.source.bytes ++ bit c.invert ++ u8 c.prescale ++ u8 c.window ++ u8 c.threshold ++ u8 c.role.code

/-- The configuration fields of a reaction, in the order of R165; IN_USE is 0 and UNUSED 1 (R190). -/
def ReactionCfg.bytes (r : ReactionCfg) : List Byte :=
  bit (!r.inUse) ++ r.source.bytes ++ u8 r.trigger.code ++ u8 r.release.code ++ r.kind.bytes

/-- The internal sources in the order of R175. -/
def internalSources : List ReactionSource :=
  (List.range 8).map .bandAtLeast ++ [.anyPumpFaulted, .driveLinkLost, .clockHoldover]

/-- The fields of an INPUT_READ after the status (R175; log 15). -/
def State.inputBytes (s : State) : List Byte :=
  (List.range 32).flatMap (fun i => bit (s.trip.samples.getLsbD i)) ++
    s.trip.conditions.cells.flatMap (fun c => c.cfg.bytes) ++
    s.trip.conditions.cells.flatMap (fun c => bit c.filtered ++ u8 (oppositeCount c.history c.filtered)) ++
    s.trip.reactions.cells.flatMap (fun r => r.cfg.bytes) ++
    s.trip.reactions.cells.flatMap (fun r => bit r.latch ++ bit (s.isActive r)) ++
    internalSources.flatMap (fun x => bit (s.sourceLevel x)) ++
    (List.range 4).flatMap (fun z => u8 (if s.zoneOccupied z then 0 else 1))

/-- INPUT_READ (R175). -/
def readInputs (tag : Byte) (s : State) : State := s.answer 0x4B#8 tag .ok s.inputBytes

/-- INPUT_READ (R175). -/
def execInputRead (tag : Byte) (s : State) : Host.Outcome State Fault Refusal := request 0x4B#8 tag (readInputs tag) s

end Sys2Proof.Machine
end

