-- ==== Sys2Proof/Machine/Link.lean ====
section
/-! DEFINITION. The Control Link Port: the receive side, the dispatch of frames to their owners, the transmit side's end
of a frame, and its own requests (11_the_control_link.md: R185 to R189, R195, R196, R199). -/

namespace Sys2Proof.Machine

/-! ### Requests of the Control Link Port -/

/-- NOTICE_MASK: the reply carries the mask in force (R196). -/
def maskNotices (tag mask : Byte) (s : State) : State :=
  ({ s with link := { s.link with mask := mask } }).answer 0x02#8 tag .ok [mask]

/-- NOTICE_MASK (R196). -/
def execNoticeMask (tag mask : Byte) (s : State) : Host.Outcome State Fault Refusal :=
  request 0x02#8 tag (maskNotices tag mask) s

/-- RESET is taken: its OK reply joins the list, and the reset begins when that reply has been sent (R199). -/
def takeReset (tag : Byte) (s : State) : State :=
  ({ s with link := { s.link with resetTaken := true } }).joinReply
    { kind := replyKind 0x01#8, tag := tag, payload := u8 Status.ok.code, thenReset := true }

/-- RESET (R199). -/
def execReset (tag : Byte) (s : State) : Host.Outcome State Fault Refusal := request 0x01#8 tag (takeReset tag) s

/-! ### Dispatch (R188) -/

/-- The owner's decision on a dispatched request (R188, step 5); a command that is no request has no owner. -/
def owner : Instr → State → State
  | .reset t => takeReset t
  | .noticeMask t m => maskNotices t m
  | .saveImage t => saveImage t
  | .clockConfig t x => configureClock t x
  | .clockRead t => readClock t
  | .showOpen t a => openShow t a
  | .showAppend t p => appendShow t p
  | .showSeal t n => sealShow t n
  | .showErase t n => eraseShow t n
  | .showInfo t n => showInfo t n
  | .showStart t n => startShow t n
  | .showPause t => pauseShow t
  | .showResume t => resumeShow t
  | .showStop t => stopShow t
  | .showAbort t => abortShow t
  | .flagsSet t m => setFlags t m
  | .flagsClear t m => clearFlags t m
  | .sequencerRead t => readSequencer t
  | .channelConfig t a => configureChannel t a
  | .jetGroupConfig t a => configureJetGroup t a
  | .jetSet t a => setJets t a
  | .channelRead t n => readChannel t n
  | .jetGroupRead t n => readJetGroup t n
  | .pumpConfig t a => configurePump t a
  | .pumpSet t a => setPumps t a
  | .pumpClear t n => clearPump t n
  | .pumpRead t n => readPump t n
  | .manifoldConfig t m r => configureManifold t m r
  | .manifoldRead t m => readManifold t m
  | .windConfig t a => configureWind t a
  | .windBandSet t b => setBand t b
  | .windRead t => readWind t
  | .fixtureConfig t a => configureFixture t a
  | .fixtureGroupConfig t a => configureFixtureGroup t a
  | .lightingConfig t a => configureLighting t a
  | .fixtureSet t a => setFixtures t a
  | .fixtureRead t n => readFixture t n
  | .fixtureGroupRead t n => readFixtureGroup t n
  | .lightingRead t => readLighting t
  | .trackDefine t a => defineTrack t a
  | .trackRead t n => readTrack t n
  | .audioConfig t g r => configureAudio t g r
  | .streamRead t n => readStream t n
  | .flashErase t a => eraseFlash t a
  | .flashWrite t a d => writeFlash t a d
  | .flashRead t a n => readFlash t a n
  | .inputConfig t p => configureInputs t p
  | .reactionConfig t a => configureReaction t a
  | .tripClear t n => clearTrip t n
  | .inputRead t => readInputs t
  | .setPlant t c => setPlant t c
  | .outputConfig t a => configureOutput t a
  | .outputsSet t m => setOutputs t m
  | .outputsClear t m => clearOutputs t m
  | .outputRead t => readOutputs t
  | _ => id

/-- A frame's outcome from step 3 of R188 on: unknown kind, bad length, or its owner's decision. -/
def dispatch (kind tag : Byte) (payload : List Byte) (s : State) : State :=
  match decodeRequest kind tag payload with
  | .unknownKind => s.refuse kind tag .unknownKind
  | .badLength => s.refuse kind tag .badLength
  | .request i => owner i s

/-- A complete frame judged: discarded after a taken RESET (R199) or when its kind is 0x80 or above, else as
R188 orders it. A payload above 1024 bytes is no frame's and is dropped (R185, R186). -/
def receiveFrame (kind tag : Byte) (payload : List Byte) (s : State) : State :=
  if 0x80 ≤ kind.toNat ∨ 1024 < payload.length then s.hunt else s.hunt.judged kind tag (dispatch kind tag payload)

/-- FRAME_COMPLETE (R188). -/
def execFrameComplete (kind tag : Byte) (payload : List Byte) (s : State) : Host.Outcome State Fault Refusal :=
  happens (receiveFrame kind tag payload) s

/-! ### The receive side, byte by byte (R185, R186) -/

/-- The receive side's state set. -/
def State.withRx (s : State) (rx : RxState) : State := { s with link := { s.link with rx := rx } }

/-- The payload length of an assembling frame, once its two bytes are there (R185). -/
def frameLength (buffer : List Byte) : Nat := half buffer 0

/-- A frame whose last byte has arrived: complete when its CRC is good, else dropped (R186). -/
def finishFrame (buffer : List Byte) (s : State) : State :=
  let n := frameLength buffer
  if (crc16 (buffer.take (n + 4))).toNat = half buffer (n + 4) then
    receiveFrame (byteAt buffer 2) (byteAt buffer 3) ((buffer.drop 4).take n) s
  else s.hunt

/-- A byte placed in the frame buffer (R186). -/
def placeByte (buffer : List Byte) (s : State) : State :=
  if buffer.length < 2 then s.withRx (.assembling buffer)
  else if 1024 < frameLength buffer then s.hunt
  else if buffer.length < frameLength buffer + 6 then s.withRx (.assembling buffer)
  else finishFrame buffer s

/-- A byte arrives (R186). -/
def receiveByte (b : Byte) (s : State) : State :=
  match s.link.rx with
  | .hunting => if b = 0xA5#8 then s.withRx (.assembling []) else s
  | .assembling buffer => placeByte (buffer ++ [b]) s

/-- CONTROL_LINK_BYTE (R186). -/
def execControlLinkByte (b : Byte) (s : State) : Host.Outcome State Fault Refusal := happens (receiveByte b) s

/-- FRAME_TIMEOUT: more than 2 ms between two bytes of a frame drops it (R186). -/
def execFrameTimeout (s : State) : Host.Outcome State Fault Refusal := happens State.hunt s

/-! ### The end of a frame on the line (R195, R199) -/

/-- The last byte of the frame on the line has been sent; after the OK reply of a RESET the reset begins
(R195, R199). -/
def endFrame (s : State) : State :=
  match s.link.line with
  | some f =>
    if f.thenReset then s.beginReset else ({ s with link := { s.link with line := none } }).transmit
  | none => s.transmit

/-- TRANSMIT_END (R195). -/
def execTransmitEnd (s : State) : Host.Outcome State Fault Refusal :=
  .next (if s.phase = .running then endFrame s else s)

end Sys2Proof.Machine
end

