-- ==== Sys2Proof/Machine/Dispatch.lean ====
section
/-! DEFINITION. One arm per command: a direct call of its meaning. -/

namespace Sys2Proof.Machine

def exec (i : Instr) (s : State) : Host.Outcome State Fault Refusal :=
  match i with
  | .reset tag => Sys2Proof.Machine.execReset tag s
  | .resetPin => Sys2Proof.Machine.execResetPin s
  | .resetSequence baud lines => Sys2Proof.Machine.execResetSequence baud lines s
  | .noticeMask tag mask => Sys2Proof.Machine.execNoticeMask tag mask s
  | .saveImage tag => Sys2Proof.Machine.execSaveImage tag s
  | .clockConfig tag timeout => Sys2Proof.Machine.execClockConfig tag timeout s
  | .clockRead tag => Sys2Proof.Machine.execClockRead tag s
  | .showOpen tag args => Sys2Proof.Machine.execShowOpen tag args s
  | .showAppend tag payload => Sys2Proof.Machine.execShowAppend tag payload s
  | .showSeal tag number => Sys2Proof.Machine.execShowSeal tag number s
  | .showErase tag number => Sys2Proof.Machine.execShowErase tag number s
  | .showInfo tag number => Sys2Proof.Machine.execShowInfo tag number s
  | .showStart tag number => Sys2Proof.Machine.execShowStart tag number s
  | .showPause tag => Sys2Proof.Machine.execShowPause tag s
  | .showResume tag => Sys2Proof.Machine.execShowResume tag s
  | .showStop tag => Sys2Proof.Machine.execShowStop tag s
  | .showAbort tag => Sys2Proof.Machine.execShowAbort tag s
  | .flagsSet tag mask => Sys2Proof.Machine.execFlagsSet tag mask s
  | .flagsClear tag mask => Sys2Proof.Machine.execFlagsClear tag mask s
  | .sequencerRead tag => Sys2Proof.Machine.execSequencerRead tag s
  | .channelConfig tag args => Sys2Proof.Machine.execChannelConfig tag args s
  | .jetGroupConfig tag args => Sys2Proof.Machine.execJetGroupConfig tag args s
  | .jetSet tag args => Sys2Proof.Machine.execJetSet tag args s
  | .channelRead tag channel => Sys2Proof.Machine.execChannelRead tag channel s
  | .jetGroupRead tag group => Sys2Proof.Machine.execJetGroupRead tag group s
  | .pumpConfig tag args => Sys2Proof.Machine.execPumpConfig tag args s
  | .pumpSet tag args => Sys2Proof.Machine.execPumpSet tag args s
  | .pumpClear tag pump => Sys2Proof.Machine.execPumpClear tag pump s
  | .pumpRead tag pump => Sys2Proof.Machine.execPumpRead tag pump s
  | .manifoldConfig tag manifold reserve => Sys2Proof.Machine.execManifoldConfig tag manifold reserve s
  | .manifoldRead tag manifold => Sys2Proof.Machine.execManifoldRead tag manifold s
  | .windConfig tag args => Sys2Proof.Machine.execWindConfig tag args s
  | .windBandSet tag band => Sys2Proof.Machine.execWindBandSet tag band s
  | .windRead tag => Sys2Proof.Machine.execWindRead tag s
  | .fixtureConfig tag args => Sys2Proof.Machine.execFixtureConfig tag args s
  | .fixtureGroupConfig tag args => Sys2Proof.Machine.execFixtureGroupConfig tag args s
  | .lightingConfig tag args => Sys2Proof.Machine.execLightingConfig tag args s
  | .fixtureSet tag args => Sys2Proof.Machine.execFixtureSet tag args s
  | .fixtureRead tag fixture => Sys2Proof.Machine.execFixtureRead tag fixture s
  | .fixtureGroupRead tag group => Sys2Proof.Machine.execFixtureGroupRead tag group s
  | .lightingRead tag => Sys2Proof.Machine.execLightingRead tag s
  | .trackDefine tag args => Sys2Proof.Machine.execTrackDefine tag args s
  | .trackRead tag track => Sys2Proof.Machine.execTrackRead tag track s
  | .audioConfig tag gain release => Sys2Proof.Machine.execAudioConfig tag gain release s
  | .streamRead tag stream => Sys2Proof.Machine.execStreamRead tag stream s
  | .flashErase tag address => Sys2Proof.Machine.execFlashErase tag address s
  | .flashWrite tag address data => Sys2Proof.Machine.execFlashWrite tag address data s
  | .flashRead tag address length => Sys2Proof.Machine.execFlashRead tag address length s
  | .flashInterfaceHold => Sys2Proof.Machine.execFlashInterfaceHold s
  | .flashOperationDone ok => Sys2Proof.Machine.execFlashOperationDone ok s
  | .flashTimeout => Sys2Proof.Machine.execFlashTimeout s
  | .inputConfig tag payload => Sys2Proof.Machine.execInputConfig tag payload s
  | .reactionConfig tag args => Sys2Proof.Machine.execReactionConfig tag args s
  | .tripClear tag reaction => Sys2Proof.Machine.execTripClear tag reaction s
  | .inputRead tag => Sys2Proof.Machine.execInputRead tag s
  | .setPlant tag code => Sys2Proof.Machine.execSetPlant tag code s
  | .outputConfig tag args => Sys2Proof.Machine.execOutputConfig tag args s
  | .outputsSet tag mask => Sys2Proof.Machine.execOutputsSet tag mask s
  | .outputsClear tag mask => Sys2Proof.Machine.execOutputsClear tag mask s
  | .outputRead tag => Sys2Proof.Machine.execOutputRead tag s
  | .frameComplete kind tag payload => Sys2Proof.Machine.execFrameComplete kind tag payload s
  | .frameTimeout => Sys2Proof.Machine.execFrameTimeout s
  | .transmitEnd => Sys2Proof.Machine.execTransmitEnd s
  | .plantMillisecond => Sys2Proof.Machine.execPlantMillisecond s
  | .stepTimeout => Sys2Proof.Machine.execStepTimeout s
  | .manifoldUpdate m => Sys2Proof.Machine.execManifoldUpdate m s
  | .pollSlot => Sys2Proof.Machine.execPollSlot s
  | .driveReply bytes => Sys2Proof.Machine.execDriveReply bytes s
  | .pollMiss => Sys2Proof.Machine.execPollMiss s
  | .startTimeout p => Sys2Proof.Machine.execStartTimeout p s
  | .gateEnd => Sys2Proof.Machine.execGateEnd s
  | .trimStep => Sys2Proof.Machine.execTrimStep s
  | .lightingFrame => Sys2Proof.Machine.execLightingFrame s
  | .outputFrame => Sys2Proof.Machine.execOutputFrame s
  | .stopFadeEnd stream => Sys2Proof.Machine.execStopFadeEnd stream s
  | .envelopeEvent => Sys2Proof.Machine.execEnvelopeEvent s
  | .refillReadComplete => Sys2Proof.Machine.execRefillReadComplete s
  | .inputSample lines => Sys2Proof.Machine.execInputSample lines s
  | .conditionSample c => Sys2Proof.Machine.execConditionSample c s
  | .pwmPeriod => Sys2Proof.Machine.execPwmPeriod s
  | .controlLinkByte byte => Sys2Proof.Machine.execControlLinkByte byte s
  | .resetPinHeldLow => Sys2Proof.Machine.execResetPinHeldLow s

end Sys2Proof.Machine
end

