-- ==== Sys2Proof/Safety.lean ====
section
/-! DEFINITION. What the statements are stated in: when a request reaches its owner, what its reply does to the control
link, what a plant at rest and a safe plant are, the ranges, the reset values of the blocks, and runs of link bytes. -/

namespace Sys2Proof.Machine

/-! ### Requests and their replies -/

/-- A request that completes now reaches its owner: the 648 runs, no RESET is taken, no request is outstanding, and the
reply list holds fewer than 4 replies once a free line has made its choice (R188, R195, R199). -/
abbrev State.Ready (s : State) : Prop :=
  s.phase = .running ∧ s.link.resetTaken = false ∧ s.link.outstanding = false ∧ s.link.choose.replies.length < 4

/-- A notice handed to the pending set (R194). -/
def LinkPort.tell (l : LinkPort) (n : Notice) : LinkPort :=
  { l with notices := l.notices.modify n.index (fun e => e.merge n) }

/-- The link after an event that made some notices pending, in order: a free line chooses before the event and at its
end (R194, R195; log 14). -/
def LinkPort.after (l : LinkPort) (ns : List Notice) : LinkPort := (ns.foldl LinkPort.tell l.choose).choose

/-- The link after a request's frame was taken, some notices were made pending and the owner's reply joined the reply
list (R186, R189, R194, R195). -/
def LinkPort.answered (l : LinkPort) (ns : List Notice) (kind tag : Byte) (status : Status) (fields : List Byte) :
    LinkPort :=
  let told := ns.foldl LinkPort.tell ({ l.choose with rx := .hunting } : LinkPort)
  ({ told with replies := told.replies ++
      [{ kind := kind + 0x80#8, tag := tag, payload := u8 status.code ++ fields, thenReset := false }] } : LinkPort).choose

/-- The state after an event that changed nothing but the link. -/
def State.passed (s : State) (ns : List Notice) : State := { s with link := s.link.after ns }

/-- The state after a request that changed nothing but the link, with the reply that its owner made. -/
def State.replied (s : State) (kind tag : Byte) (status : Status) (fields : List Byte) : State :=
  { s with link := s.link.answered [] kind tag status fields }

/-- The state after a request whose owner also made notices pending. -/
def State.repliedTelling (s : State) (ns : List Notice) (kind tag : Byte) (status : Status) (fields : List Byte) :
    State :=
  { s with link := s.link.answered ns kind tag status fields }

/-- The state after a request that began an operation which replies on completion (R187). -/
def State.outstandingNow (s : State) : State :=
  { s with link := ({ s.link.choose with rx := .hunting, outstanding := true } : LinkPort).choose }

/-- The link after the completion of an operation made its reply (R159, R187, R188). -/
def LinkPort.completed (l : LinkPort) (kind tag : Byte) (status : Status) (fields : List Byte) : LinkPort :=
  ({ l.choose with
      outstanding := false,
      replies := l.choose.replies ++
        [{ kind := kind + 0x80#8, tag := tag, payload := u8 status.code ++ fields, thenReset := false }] } :
    LinkPort).choose

/-! ### Runs of bytes on the control link -/

/-- The bytes of a run taken one after another by CONTROL_LINK_BYTE. -/
def deliverBytes : List Byte → State → Host.Outcome State Fault Refusal
  | [], s => .next s
  | b :: bs, s =>
    match exec (.controlLinkByte b) s with
    | .next t => deliverBytes bs t
    | .fault r => .fault r
    | .refused r => .refused r

/-! ### Safe states -/

/-- IDLE as R4 and R50 leave it: no running show, queue and loop stack empty, every stream IDLE, the clock STOPPED and
the step timeout disarmed. -/
abbrev State.AtRest (s : State) : Prop :=
  s.seq.running = none ∧ s.seq.queue = [] ∧ s.seq.loopStack = [] ∧
    (∀ t ∈ s.audio.streams.cells, t.state = .idle) ∧ s.clock.state = .stopped ∧ s.clock.armed = none

/-- An IDLE sequencer stands at rest, in a reset too (R4, R40, R50). -/
abbrev State.IdleAtRest (s : State) : Prop := s.seq.state = .idle → s.AtRest

/-- At every moment the mode is SAFE, a reset and its start-up included, the sequencer is IDLE, every pump's target and
commanded speed are 0 and no PWM period is under way (R176, R178, R183). -/
abbrev State.SafeHolds (s : State) : Prop :=
  s.out.mode = .safe → s.out.pwmOn = false ∧ s.seq.state = .idle ∧
    ∀ p ∈ s.water.pumps.cells, p.live.target = 0 ∧ p.live.commanded = 0

/-- In either mode, a pump that is FAULTED or LOCKED has target and commanded speed 0 (R99, R101). -/
abbrev State.StoppedPumpsHold (s : State) : Prop :=
  ∀ p ∈ s.water.pumps.cells, p.live.state = .faulted ∨ p.live.state = .locked →
    p.live.target = 0 ∧ p.live.commanded = 0

/-- The reply list holds at most 4 replies, and while an operation is in progress, which is only while the 648 runs, a
request is outstanding and its reply still finds room (R187, R194, R199). -/
abbrev State.RepliesFit (s : State) : Prop :=
  s.link.replies.length ≤ 4 ∧
    (s.flash.op.isSome = true → s.phase = .running ∧ s.link.outstanding = true ∧ s.link.replies.length ≤ 3)

/-- The flash's listed bytes stand in their canonical form. -/
abbrev State.FlashCanonical (s : State) : Prop := Memory.wf s.flash.mem = true

/-! ### Ranges of the configuration -/

/-- A channel's configuration is within R67. -/
abbrev ChannelCfg.InRange (c : ChannelCfg) : Prop :=
  c.level ≤ 7 ∧ c.kn ≤ 4095 ∧ c.curve.length = 9 ∧ c.curve.getD 0 1 = 0 ∧
    (∀ i : Fin 8, c.curve.getD i.val 0 ≤ c.curve.getD (i.val + 1) 0) ∧ c.curve.getD 8 0 ≤ 16383 ∧
    c.switchedFlow ≤ 16383 ∧ c.lead ≤ 4000 ∧ 1 ≤ c.normalSlew ∧ c.normalSlew ≤ 1000 ∧ 1 ≤ c.tripSlew ∧
    c.tripSlew ≤ 1000

/-- A pump's configuration is within R88. -/
abbrev PumpCfg.InRange (p : PumpCfg) : Prop :=
  p.address ≤ 247 ∧ p.ratedFlow ≤ 16383 ∧ p.minSpeed ≤ 1000 ∧ p.ramp ≤ 65535 ∧ p.lead ≤ 4000 ∧ 1 ≤ p.startTimeout ∧
    p.startTimeout ≤ 60

/-- The Wind Governor's configuration is within R121. -/
abbrev WindCfg.InRange (w : WindCfg) : Prop :=
  1 ≤ w.k ∧ w.k ≤ 10000 ∧ w.thresholds.length = 7 ∧ 1 ≤ w.threshold 1 ∧
    (∀ i : Fin 6, w.threshold (i.val + 1) < w.threshold (i.val + 2)) ∧ w.threshold 7 ≤ 999 ∧
    w.hysteresis ≤ w.threshold 1 ∧ 10 ≤ w.calmHold ∧ w.calmHold ≤ 600 ∧
    ∀ z ∈ w.zones.cells, z.factors.length = 8 ∧ (∀ f ∈ z.factors, f ≤ 256) ∧ 1 ≤ z.drop ∧ z.drop ≤ 256 ∧
      1 ≤ z.recover ∧ z.recover ≤ 256

/-- A directory entry's header and place are within R18. -/
abbrev ShowEntry.InRange (e : ShowEntry) : Prop :=
  e.first ≤ 4096 ∧ (∀ k ∈ e.track, k < 64) ∧ e.preRoll ≤ 4000 ∧ e.endFade ≤ 10000 ∧ e.effects ≤ 3

/-- A fixture's configuration is within R123: only a JET fixture is bound. -/
abbrev FixtureCfg.InRange (f : FixtureCfg) : Prop := f.base ≤ 509 ∧ f.lead ≤ 500 ∧ (f.kind = .jet ∨ f.bound = none)

/-- The lighting settings are within R126. -/
abbrev LightSettings.InRange (l : LightSettings) : Prop :=
  l.dryLimit ≤ 255 ∧ l.idleColour.r ≤ 255 ∧ l.idleColour.g ≤ 255 ∧ l.idleColour.b ≤ 255 ∧ l.idleColour.w ≤ 255 ∧
    l.idleMaster ≤ 255 ∧ l.safeWhite ≤ 255 ∧ 25 ≤ l.period ∧ l.period ≤ 1000

/-- A defined track lies in the flash, on a sector, above the stored image (R141). -/
abbrev Track.InRange (t : Track) : Prop :=
  t.start % 4096 = 0 ∧ 1048576 ≤ t.start ∧ 1 ≤ t.frames ∧ t.start + t.frames * t.format.frameBytes ≤ 1073741824

/-- A condition's configuration is within R161. -/
abbrev ConditionCfg.InRange (c : ConditionCfg) : Prop :=
  c.prescale ≤ 255 ∧ c.window ≤ 63 ∧ (c.window = 0 ∨ (1 ≤ c.threshold ∧ c.threshold ≤ c.window))

/-- A reaction source's argument is within R165. -/
def ReactionSource.inRange : ReactionSource → Bool
  | .bandAtLeast b => decide (b ≤ 7)
  | _ => true

/-- A reaction kind's arguments are within R165. -/
def ReactionKind.inRange : ReactionKind → Bool
  | .admitLimit _ level => decide (level ≤ 7)
  | .lampLimit _ value => decide (value ≤ 255)
  | _ => true

/-- A reaction's configuration is within R165; ANY does not go with HOST_WHEN_INACTIVE (R170). -/
abbrev ReactionCfg.InRange (r : ReactionCfg) : Prop :=
  r.source.inRange = true ∧ r.kind.inRange = true ∧ ¬ (r.trigger = .any ∧ r.release = .hostWhenInactive)

/-- A configuration is within the ranges that its requests accept: the step timeout (R16), the show headers and the
used count (R18, R19), the channels and jet groups (R67, R69), the pumps and reserves (R88, R105), the wind and the manual
band (R112, R121), the fixtures, their groups and the lighting settings (R123, R125, R126), the tracks and the audio
settings (R141, R157), the conditions, no two with one special role (R161), and the reactions (R165). -/
abbrev Image.InRange (i : Image) : Prop :=
  2 ≤ i.stepTimeout ∧ i.stepTimeout ≤ 20 ∧ (∀ c ∈ i.channels.cells, c.InRange) ∧ (∀ p ∈ i.pumps.cells, p.InRange) ∧
    i.wind.InRange ∧ i.manualBand ≤ 7 ∧
    (∀ e ∈ i.dir.cells, e.InRange) ∧ (i.dir.cells.map (·.count)).sum ≤ 4096 ∧ (∀ g ∈ i.jetGroups.cells, g.lead ≤ 4000) ∧
    (∀ r ∈ i.reserves.cells, r ≤ 16383) ∧ (∀ f ∈ i.fixtures.cells, f.InRange) ∧
    (∀ g ∈ i.fixtureGroups.cells, g.lead ≤ 500) ∧ i.lighting.InRange ∧
    (∀ x ∈ i.tracks.cells, ∀ t ∈ x, t.InRange) ∧ i.masterGain ≤ 4096 ∧ 1 ≤ i.release ∧ i.release ≤ 255 ∧
    (∀ c ∈ i.conditions.cells, c.InRange) ∧
    (∀ c d : Fin 24, (i.conditions.get c).role ≠ .general → (i.conditions.get c).role = (i.conditions.get d).role →
      c = d) ∧
    ∀ r ∈ i.reactions.cells, r.InRange

/-- The configuration in the blocks, in the stored image and in a save under way is within its ranges, and so are the
openings, the pumps' speeds, the band and the zone trims (R70, R90, R112, R120). -/
def State.InRange (s : State) : Prop :=
  s.configuration.InRange ∧ (∀ i, s.flash.image = some i → i.InRange) ∧
    (∀ o i phase, s.flash.op = some o → o.job = .save i phase → i.InRange) ∧
    (∀ c ∈ s.jets.channels.cells, c.live.opening ≤ 1000) ∧
    (∀ p ∈ s.water.pumps.cells, p.live.target ≤ 1000 ∧ p.live.commanded ≤ 1000 ∧ p.live.actual ≤ 1000) ∧
    s.wind.band ≤ 7 ∧ ∀ z ∈ s.wind.zones.cells, z.target ≤ 256 ∧ z.applied ≤ 256

/-! ### Reset values -/

/-- Every block but the Show Store and the Trip Unit stands at the reset values its chapter gives, with a configuration,
as of a plant time (R1, R2, R3, R40, R60, R67, R69, R70, R90, R93, R105, R106, R112, R120, R125, R127, R132, R142, R143,
R153, R157, R176, R181, R184). What no chapter gives a reset value is left open (log 6, log 36, log 43). -/
def State.AtResetValues (t : State) (img : Image) (now : PlantTime) : Prop :=
  let still : Fade := { start := 0, target := 0, t0 := 0, duration := 0, held := false }
  let black : Colour := ⟨0, 0, 0, 0⟩
  let automatic : Prop := ∃ c ∈ img.conditions.cells, c.role = .windPulse
  (t.clock = { plantTime := now, position := 0, state := .stopped, source := .onCrystal,
               stepTimeout := img.stepTimeout, armed := none, markCount := 0, lastSnap := 0, holdoverCount := 0 } ∧
   t.seq = { state := .idle, pausedFrom := .preroll, running := none,
             run := { first := 0, count := 0, track := some 0, preRoll := 0, endFade := 0, effects := 0 },
             endPosition := 0, endReason := .none, cursor := 0, loopOffset := 0, loopStack := [], queue := [],
             flags := 0, lateCount := 0, skipCount := 0, issuedCount := 0, lastMark := none }) ∧
  (t.jets.groups = img.jetGroups ∧ ∀ c : Fin 48, t.jets.channels.get c =
    { cfg := img.channels.get c,
      live := { fade := still, override := none, abortClose := false, requested := 0, effective := 0, trimUsed := 256,
                demand := 0, hold := ⟨false, false, false⟩, grant := 0, status := .idle, curveOpening := 0,
                opening := 0 } }) ∧
  ((∀ p : Fin 8, t.water.pumps.get p =
     { cfg := img.pumps.get p,
       live := { state := .stopped, target := 0, ramp := (img.pumps.get p).ramp, commanded := 0, actual := 0,
                 ready := false, running := false, exchange := .none, misses := 0, fault := none, startTime := 0 } }) ∧
   t.water.poll = { next := 0, awaiting := none, request := [] } ∧
   ∀ m : Fin 2, t.water.manifolds.get m =
     { reserve := img.reserves.get m,
       summary := { admitLevel := 7, available := 0, usable := 0, levels := List.replicate 7 ⟨0, .full⟩,
                    scaled := none, granted := 0, unallocated := 0 },
       lastUpdate := (t.water.manifolds.get m).lastUpdate, nextUpdate := now + if m = 0 then 10 else 15 }) ∧
  ((automatic → t.wind.band = 0) ∧ (¬ automatic → t.wind.band = img.manualBand) ∧
   (∀ z : Fin 4, t.wind.zones.get z =
     { target := (img.wind.zones.get z).factors.getD t.wind.band 256, sourceBand := t.wind.band, applied := 256 }) ∧
   t.wind = { cfg := img.wind, manualBand := img.manualBand, gateCount := 0, gateStart := now, history := ⟨0, 0, 0⟩,
              lastAverage := 0, band := t.wind.band, calm := 0, bandChanges := 0, zones := t.wind.zones,
              nextTrim := now + 100 }) ∧
  ((∀ x : Fin 96, t.light.fixtures.get x =
     { cfg := img.fixtures.get x,
       live := { fade := { start := black, target := black, t0 := 0, duration := 0, held := false }, master := 0,
                 mode := .steady, intensity := 0, limits := ⟨false, false, false⟩, output := black } }) ∧
   t.light = { fixtures := t.light.fixtures, groups := img.fixtureGroups, settings := img.lighting, nextFrame := now,
               frameCount := 0, lastFrame := t.light.lastFrame, lastSlots := t.light.lastSlots,
               lastEnvelope := t.light.lastEnvelope, line := [] }) ∧
  ((∀ i : Fin 4, t.audio.streams.get i =
     { state := .idle, pausedFrom := .playing, track := 0, format := .stereo16, startPosition := 0, nextAddress := 0,
       leftToRead := 0, leftToPlay := 0, framesOutput := 0, gain := still, share := if i = 0 then 16 else 0,
       ring := [], headPos := 0, boundary := false, silenceLeft := 0, silencePasses := false, underruns := 0 }) ∧
   t.audio = { tracks := img.tracks, streams := t.audio.streams, read := none, masterGain := img.masterGain,
               release := img.release, envelope := 0, clip := false, outLeft := t.audio.outLeft, outRight := t.audio.outRight,
               serial := t.audio.serial, blockCount := 0, blockPeak := 0 }) ∧
  (t.out.mode = .safe ∧ t.out.lines = img.outputs ∧ t.out.host = 0 ∧ t.out.pwmOn = false)

/-! ### What the statements measure -/

/-- A read of an indexed record: the record's fields when the number is in range, else BAD_ARGUMENT. -/
def readsRecord (s : State) (i : Instr) (kind tag number : Byte) (n : Nat) (fields : Fin n → List Byte) : Prop :=
  exec i s = .next
    (if h : number.toNat < n then s.replied kind tag .ok (fields ⟨number.toNat, h⟩)
      else s.replied kind tag .badArgument [])

/-- Some bytes of a payload stand for a number, low byte first, from an offset on (R190). -/
def fieldAt (payload : List Byte) (offset size value : Nat) : Prop := (payload.drop offset).take size = le size value

/-- The flow granted to the channels of a manifold (R110). -/
def State.grantedTo (s : State) (m : Manifold) : Nat :=
  ((s.jets.channels.cells.filter (fun c => c.cfg.manifold = m)).map (fun c => c.live.grant)).sum

/-- The show position moves at a plant millisecond (R5). -/
abbrev State.CountsLocally (s : State) : Prop :=
  (s.seq.state = .preroll ∨ s.seq.state = .playing ∨ s.seq.state = .ending) ∧
    ((s.clock.state = .locked ∧ s.clock.source = .onCrystal) ∨ s.clock.state = .holdover)

/-- No reaction is in use: no transition of a source activates anything (R165). -/
abbrev State.NoReactions (s : State) : Prop := ∀ r ∈ s.trip.reactions.cells, r.cfg.inUse = false

/-- A show's range of the cue store: its first store index and the index past its last (R19). -/
def ShowEntry.stop (e : ShowEntry) : Nat := e.first + e.count

end Sys2Proof.Machine
end

