-- ==== Sys2Proof/Certificates/Slice0/Obligations.lean ====
section
/-! DEFINITION. The statements for the provers. -/

open Sys2Proof Sys2Proof.Machine

/-! ### The queue of commands and the control link -/

/-- One step takes the command at the front of the queue and runs it on the state with the queue's rest; on an empty
queue the block idles (log 2). -/
def Obligations.StepTakesTheFrontCommand : Prop :=
  (∀ (s : State) (c : Instr) (q : List Instr), s.pending = c :: q → step s = exec c { s with pending := q }) ∧
  (∀ s : State, s.pending = [] → step s = .next s)

/-- The frame that carries a request spells exactly that request (R185, R188, R190): no field is dropped. -/
def Obligations.DecodeOfEncodedRequest : Prop :=
  ∀ (i : Instr) (k t : Byte) (p : List Byte),
    i.wf = true → encodeRequest i = some (k, t, p) → decodeRequest k t p = .request i

/-- A complete frame of a request's kind, tag and payload does exactly what the request's own command does (R188, step
5; log 3). -/
def Obligations.FrameRunsItsRequest : Prop :=
  ∀ (i : Instr) (k t : Byte) (p : List Byte) (s : State),
    i.wf = true → encodeRequest i = some (k, t, p) → exec (.frameComplete k t p) s = exec i s

/-- The bytes of a frame, taken one by one by a hunting receive side, do exactly what the complete frame does (R185,
R186). -/
def Obligations.FrameBytesDeliverTheFrame : Prop :=
  ∀ (s : State) (k t : Byte) (p : List Byte),
    s.phase = .running → s.link.rx = .hunting → p.length ≤ 1024 →
      deliverBytes (frameBytes k t p) s = exec (.frameComplete k t p) s

/-- The receive side byte by byte (R186): while hunting, every byte but 0xA5 is discarded and 0xA5 begins a frame; a
byte of a frame joins the buffer until the frame is whole; a length above 1024 drops the frame at its second length
byte; a whole frame with a bad CRC is dropped; more than 2 ms between two bytes drops it. Nothing else changes but the
free line's choice. -/
def Obligations.ReceiveSideTakesBytes : Prop :=
  ∀ (s : State) (b : Byte), s.phase = .running →
    (s.link.rx = .hunting →
      exec (.controlLinkByte b) s =
        .next { s with link := { s.link.choose with rx := if b = 0xA5#8 then .assembling [] else .hunting } }) ∧
    (∀ buffer : List Byte, s.link.rx = .assembling buffer → buffer.length + 1 < 2 →
      exec (.controlLinkByte b) s =
        .next { s with link := { s.link.choose with rx := .assembling (buffer ++ [b]) } }) ∧
    (∀ buffer : List Byte, s.link.rx = .assembling buffer → 2 ≤ buffer.length + 1 →
      1024 < frameLength (buffer ++ [b]) →
      exec (.controlLinkByte b) s = .next { s with link := { s.link.choose with rx := .hunting } }) ∧
    (∀ buffer : List Byte, s.link.rx = .assembling buffer → 2 ≤ buffer.length + 1 →
      frameLength (buffer ++ [b]) ≤ 1024 → buffer.length + 1 < frameLength (buffer ++ [b]) + 6 →
      exec (.controlLinkByte b) s =
        .next { s with link := { s.link.choose with rx := .assembling (buffer ++ [b]) } }) ∧
    (∀ buffer : List Byte, s.link.rx = .assembling buffer → frameLength (buffer ++ [b]) ≤ 1024 →
      buffer.length + 1 = frameLength (buffer ++ [b]) + 6 →
      (crc16 ((buffer ++ [b]).take (buffer.length - 1))).toNat ≠ half (buffer ++ [b]) (buffer.length - 1) →
      exec (.controlLinkByte b) s = .next { s with link := { s.link.choose with rx := .hunting } }) ∧
    exec .frameTimeout s = .next { s with link := { s.link.choose with rx := .hunting } }

/-- A complete frame is judged in the order of R188: kinds from 0x80 up are discarded, BUSY is answered while a
request is outstanding or 4 replies wait (and discarded when 3 or more wait, R194), then UNKNOWN_KIND, then
BAD_LENGTH. After a taken RESET every frame is discarded (R199). -/
def Obligations.FramesAreJudgedInOrder : Prop :=
  ∀ (s : State) (k t : Byte) (p : List Byte), s.phase = .running → p.length ≤ 1024 →
    (s.link.resetTaken = true ∨ 0x80 ≤ k.toNat →
      exec (.frameComplete k t p) s = .next { s with link := { s.link.choose with rx := .hunting } }) ∧
    (s.link.resetTaken = false → k.toNat < 0x80 →
      s.link.outstanding = true ∨ 4 ≤ s.link.choose.replies.length →
      exec (.frameComplete k t p) s =
        .next (if 3 ≤ s.link.choose.replies.length then { s with link := { s.link.choose with rx := .hunting } }
          else s.replied k t .busy [])) ∧
    (s.Ready → k.toNat < 0x80 → decodeRequest k t p = .unknownKind →
      exec (.frameComplete k t p) s = .next (s.replied k t .unknownKind [])) ∧
    (s.Ready → k.toNat < 0x80 → decodeRequest k t p = .badLength →
      exec (.frameComplete k t p) s = .next (s.replied k t .badLength []))

/-- When the last byte of a frame has been sent, the oldest reply goes next; else the first kind in the order of R195
that is pending and enabled, whose mark is cleared and whose count returns to 0; else the line stays idle (R195). -/
def Obligations.TransmitEndSendsTheNextFrame : Prop :=
  ∀ (s : State) (f : TxFrame), s.phase = .running → s.link.line = some f → f.thenReset = false →
    (∀ (r : Reply) (rs : List Reply), s.link.replies = r :: rs →
      exec .transmitEnd s = .next { s with link := { s.link with line := some r.frame, replies := rs } }) ∧
    (∀ k : Fin 8, s.link.replies = [] → (s.link.notices.get k).pending = true → s.link.mask.getLsbD k.val = true →
      (∀ j : Fin 8, j.val < k.val → (s.link.notices.get j).pending = true → s.link.mask.getLsbD j.val = false) →
      exec .transmitEnd s = .next { s with link := { s.link with
        line := some ((s.link.notices.get k).frame k.val),
        notices := s.link.notices.set k { s.link.notices.get k with pending := false, count := 0 } } }) ∧
    (s.link.replies = [] →
      (∀ j : Fin 8, (s.link.notices.get j).pending = true → s.link.mask.getLsbD j.val = false) →
      exec .transmitEnd s = .next { s with link := { s.link with line := none } })

/-- A notice made pending raises the count of its own kind by one, from 1 when its mark was clear and to at most 255,
and replaces the detail; no other kind's entry changes (R194). NOTICE_MASK replaces the mask and replies with it
(R196). -/
def Obligations.NoticesMergeUnderTheMask : Prop :=
  (∀ (l : LinkPort) (n : Notice) (k : Fin 8),
    (l.tell n).notices.get k =
      if k = n.index then
        { pending := true,
          count := if (l.notices.get k).pending then min 255 ((l.notices.get k).count + 1) else 1,
          detail := some n }
      else l.notices.get k) ∧
  (∀ (s : State) (tag mask : Byte), s.Ready →
    exec (.noticeMask tag mask) s =
      .next { s with link := ({ s.link.choose with
        rx := .hunting, mask := mask,
        replies := s.link.choose.replies ++
          [{ kind := 0x82#8, tag := tag, payload := [0#8, mask], thenReset := false }] } : LinkPort).choose })

/-! ### Reset and start-up -/

/-- A RESET request is taken: its OK reply joins the list; when that reply's last byte has been sent the reset begins
with plant time 0, the mode SAFE, the control link silent, the lighting line at its mark level and no flash operation
under way (R1, R176, R199). Every block but the Show Store and the Trip Unit then stands at the reset values of its
chapter; those two, which start-up loads and seeds, keep what they hold, and so does the configuration until start-up
loads one (R199; log 4): the sequencer is IDLE and at rest, every pump is STOPPED with target and commanded speed 0
(R178), no reply waits, no notice is pending and the mask enables every kind. While the reset pin is low the 648 is
held with every output line LOW and both lines silent; from every such state the release begins the reset. Either way
a save that the reset cuts off leaves no valid image (R198), and an erase or a write that it cuts off leaves every
byte outside its own range (log 9). Plant time counts on through the start-up that follows (R1, R199; the phases of a
reset: log 4). -/
def Obligations.ResetsBegin : Prop :=
  let cutOff : State → State → Prop := fun s t =>
    t.flash.op = none ∧ t.light.line = [] ∧ t.link.line = none ∧ t.link.rx = .hunting ∧ t.pending = s.pending ∧
    (∀ o i phase, s.flash.op = some o → o.job = .save i phase → t.flash.image = none) ∧
    (∀ o, s.flash.op = some o → (∀ i phase, o.job ≠ .save i phase) → t.flash.image = s.flash.image) ∧
    (s.flash.op = none → t.flash = s.flash) ∧
    (s.FlashCanonical → ∀ (o : FlashOp) (b : Nat), s.flash.op = some o → (∀ i phase, o.job ≠ .save i phase) →
      (∀ a, o.job = .erase a → o.holding = true → b < a ∨ a + 4096 ≤ b) →
      (∀ a data, o.job = .write a data → o.holding = true → b < a ∨ a + data.length ≤ b) →
      t.flash.byte b = s.flash.byte b)
  let begun : State → State → Prop := fun s t =>
    t.phase = .resetting ∧ t.clock.plantTime = 0 ∧ t.out.mode = .safe ∧ t.seq.state = .idle ∧ t.AtRest ∧
    (∀ p : Fin 8, (t.water.pumps.get p).live.state = .stopped ∧ (t.water.pumps.get p).live.target = 0 ∧
      (t.water.pumps.get p).live.commanded = 0) ∧
    t.link.replies = [] ∧ (∀ k : Fin 8, (t.link.notices.get k).pending = false) ∧ t.link.mask = 0xFF#8 ∧
    t.configuration = s.configuration ∧ t.AtResetValues s.configuration 0 ∧
    t.store = s.store ∧ t.trip = s.trip ∧ t.pending = s.pending ∧
    t.link = { rx := .hunting, outstanding := false, replies := [], notices := t.link.notices, mask := 0xFF#8,
               line := none, resetTaken := false }
  ((∀ (s : State) (tag : Byte), s.Ready →
     exec (.reset tag) s = .next ({ s with link := ({ s.link.choose with
       rx := .hunting, resetTaken := true,
       replies := s.link.choose.replies ++
         [{ kind := 0x81#8, tag := tag, payload := [0#8], thenReset := true }] } : LinkPort).choose })) ∧
   (∀ (s : State) (f : TxFrame), s.phase = .running → s.link.line = some f → f.thenReset = true →
     ∃ t, exec .transmitEnd s = .next t ∧ begun s t ∧ cutOff s t)) ∧
  ((∀ s : State, ∃ t, exec .resetPinHeldLow s = .next t ∧ t.phase = .heldLow ∧ cutOff s t ∧
     (∀ (i : Nat) (cfg : OutputCfg), t.shown i cfg = .low) ∧
     (∃ u, exec .resetPin t = .next u ∧ begun s u ∧ (∀ (i : Nat) (cfg : OutputCfg), u.shown i cfg = .low))) ∧
   (∀ s : State, s.phase = .heldLow → ∃ u, exec .resetPin s = .next u ∧ begun s u ∧ cutOff s u ∧
     (∀ (i : Nat) (cfg : OutputCfg), u.shown i cfg = .low)) ∧
   (∀ s : State, s.phase ≠ .heldLow → exec .resetPin s = .next s) ∧
   (∀ s : State, s.phase = .resetting →
     exec .plantMillisecond s = .next { s with clock := { s.clock with plantTime := s.clock.plantTime + 1 } }))

/-- Start-up, once a reset has begun (the phases of a reset: log 4), takes every configuration field from the stored
image, or the factory defaults when no valid image stands in flash, with every LOADING show emptied (R39, R197, R199).
Every block stands at the reset values of its chapter: the Show Clock, the Sequencer with its run record, the
channels, the pumps with their live records, the manifolds, the Wind Governor with its zone trims, the fixtures, the
streams and the Output Matrix (what no chapter gives a reset value is left open: log 6, log 36, log 43). So the plant
stays SAFE, the sequencer is IDLE, the flags and host levels are clear, every pump is STOPPED, every channel is
closed, every fixture dark, every stream IDLE with the pool unsplit, and the lighting line stands at its mark level.
No reply waits, the mask enables every notice kind and START alone is pending, with count 1 (R199); plant time, which
is 0 as the reset begins, stands as it has counted (log 4). The first input sample seeds every condition as a window
full of it, and the latch of an IN_USE reaction is set exactly for RISE on a HIGH source and FALL on a LOW one (R169);
the band is the manual band, or 0 in AUTOMATIC. -/
def Obligations.StartUpRestoresTheConfiguration : Prop :=
  ∀ (s : State) (baud : Baud) (lines : BitVec 32), s.phase = .resetting →
    ∃ t, exec (.resetSequence baud lines) s = .next t ∧ t.phase = .running ∧ t.baud = baud ∧
      t.configuration =
        { s.flash.image.getD Image.factory with
          dir := (s.flash.image.getD Image.factory).dir.map
            (fun e => if e.state = .loading then ShowEntry.blank else e),
          cues := (s.flash.image.getD Image.factory).cues.take
            (((s.flash.image.getD Image.factory).dir.cells.map
              (fun e => if e.state = .loading then 0 else e.count)).sum) } ∧
      t.clock.plantTime = s.clock.plantTime ∧ t.clock.position = 0 ∧ t.clock.state = .stopped ∧
      t.clock.source = .onCrystal ∧ t.clock.armed = none ∧
      t.seq.state = .idle ∧ t.seq.flags = 0#16 ∧ t.out.mode = .safe ∧ t.out.host = 0#64 ∧
      (∀ p : Fin 8, (t.water.pumps.get p).live.state = .stopped ∧ (t.water.pumps.get p).live.target = 0) ∧
      t.link.mask = 0xFF#8 ∧ t.link.replies = [] ∧ t.link.outstanding = false ∧ t.link.rx = .hunting ∧
      t.link.notices.get 7 =
        { pending := true, count := 1, detail := some (.startUp s.flash.image.isSome) } ∧
      (∀ k : Fin 8, k ≠ 7 → (t.link.notices.get k).pending = false) ∧
      t.flash = s.flash ∧ t.pending = s.pending ∧ t.light.line = [] ∧ t.trip.samples = lines ∧
      t.AtResetValues (s.flash.image.getD Image.factory) s.clock.plantTime ∧
      t.link = { rx := .hunting, outstanding := false, replies := [], notices := t.link.notices, mask := 0xFF#8,
                 line := none, resetTaken := false } ∧
      (let still : Fade := { start := 0, target := 0, t0 := 0, duration := 0, held := false }
       let black : Colour := ⟨0, 0, 0, 0⟩
       (∀ i : Fin 4, t.audio.streams.get i =
         { state := .idle, pausedFrom := .playing, track := 0, format := .stereo16, startPosition := 0,
           nextAddress := 0, leftToRead := 0, leftToPlay := 0, framesOutput := 0, gain := still,
           share := if i = 0 then 16 else 0, ring := [], headPos := 0, boundary := false, silenceLeft := 0,
           silencePasses := false, underruns := 0 }) ∧
       t.audio.read = none ∧ t.audio.clip = false ∧ t.audio.envelope = 0 ∧
       (∀ c : Fin 48, (t.jets.channels.get c).live =
         { fade := still, override := none, abortClose := false, requested := 0, effective := 0, trimUsed := 256,
           demand := 0, hold := ⟨false, false, false⟩, grant := 0, status := .idle, curveOpening := 0,
           opening := 0 }) ∧
       (∀ x : Fin 96, (t.light.fixtures.get x).live =
         { fade := { start := black, target := black, t0 := 0, duration := 0, held := false }, master := 0,
           mode := .steady, intensity := 0, limits := ⟨false, false, false⟩, output := black }) ∧
       t.light.frameCount = 0 ∧ t.light.nextFrame = s.clock.plantTime ∧
       (t.water.manifolds.get 0).nextUpdate = s.clock.plantTime + 10 ∧
       (t.water.manifolds.get 1).nextUpdate = s.clock.plantTime + 15) ∧
      (let img := s.flash.image.getD Image.factory
       ((∃ c ∈ img.conditions.cells, c.role = .windPulse) → t.wind.band = 0) ∧
       ((∀ c ∈ img.conditions.cells, c.role ≠ .windPulse) → t.wind.band = img.manualBand) ∧
       (∀ c : Fin 24,
         let cfg := img.conditions.get c
         let x := xor (match cfg.source with
           | .line i => lines.getLsbD i.val
           | .constLow => false
           | .constHigh => true) cfg.invert
         t.trip.conditions.get c = { cfg := cfg, prescaleCount := 0, due := false,
                                     history := List.replicate cfg.window x, filtered := x }) ∧
       ∀ i : Fin 32,
         let cfg := img.reactions.get i
         let level : Bool := match cfg.source with
           | .condition c => (t.trip.conditions.get c).filtered
           | .bandAtLeast b => decide (b ≤ t.wind.band)
           | _ => false
         (t.trip.reactions.get i).cfg = cfg ∧
         ((t.trip.reactions.get i).latch = true ↔ cfg.inUse = true ∧
           (cfg.trigger = .rise ∧ level = true ∨ cfg.trigger = .fall ∧ level = false)))

/-! ### Invariants that every step keeps -/

/-- Every step keeps the flash's listed bytes in their canonical form, which is the model's own (log 7): no operation
on the flash leaves it. -/
def Obligations.EveryStepKeepsTheFlashCanonical : Prop :=
  ∀ s t : State, s.FlashCanonical → step s = .next t → t.FlashCanonical

/-- Every step keeps an IDLE sequencer at rest: no running show, an empty queue and loop stack, every stream IDLE and
the clock STOPPED with the step timeout disarmed (R4, R40, R49, R50). A reset and its start-up are no exception. -/
def Obligations.EveryStepKeepsIdleAtRest : Prop :=
  ∀ s t : State, s.IdleAtRest → step s = .next t → t.IdleAtRest

/-- Every step keeps the plant held while its mode is SAFE: the sequencer is IDLE, every pump's target and commanded
speed are 0 (R178) and no PWM period is under way (R183). That holds from the moment a reset sets SAFE, through its
start-up and after it (R176, R199). In either mode every step keeps the target and the commanded speed of a FAULTED or
LOCKED pump at 0 (R94, R99, R101). -/
def Obligations.EveryStepKeepsThePlantSafe : Prop :=
  (∀ s t : State, s.SafeHolds → step s = .next t → t.SafeHolds) ∧
  ∀ s t : State, s.StoppedPumpsHold → step s = .next t → t.StoppedPumpsHold

/-- Every step keeps at most 4 replies on the reply list, with room for the reply of an operation in progress (R187,
R188, R194). -/
def Obligations.EveryStepKeepsRoomForReplies : Prop :=
  ∀ s t : State, s.RepliesFit → step s = .next t → t.RepliesFit

/-- Every step keeps every block's configuration within the ranges its requests accept, in the blocks, in the stored
image and in a save under way: the step timeout (R16), the show headers and the used count (R18), the channels and jet
groups (R67), the pumps and reserves (R88, R105), the wind (R121), the fixtures, their groups and the lighting settings
(R123, R126), the tracks (R141), the audio settings (R157), the conditions with each special role held once (R161) and
the reactions (R165); and the openings, speeds, band and trims within theirs. Beside them: the wind's band and
trims, the pumps' speeds and the groups' leads. -/
def Obligations.EveryStepKeepsTheRanges : Prop :=
  ∀ s t : State, s.InRange → step s = .next t → t.InRange

/-- The state after reset meets every invariant. -/
def Obligations.ResetMeetsTheInvariants : Prop :=
  State.reset.FlashCanonical ∧ State.reset.IdleAtRest ∧ State.reset.SafeHolds ∧ State.reset.StoppedPumpsHold ∧
    State.reset.RepliesFit ∧ State.reset.InRange

/-! ### Reading -/

/-- Every read request is taken in either plant mode and every sequencer state, changes nothing but the link, and
replies OK with the record as it stands, each field in the bytes that R190 gives it; a number out of range is refused
with BAD_ARGUMENT (R17, R37, R66, R87, R104, R111, R122, R140, R158, R175, R184, R190; the readings of R190 that the
model chose, the codes of the two fields paused from and the two bytes of silence left among them: log 15; the elapsed
time of a gate that is due: log 39; the envelope of a frame that read none: log 36; a discarded refill read is not
reported: log 19). -/
def Obligations.ReadRequestsChangeNothing : Prop :=
  let byte : Bool → List Byte := fun b => le 1 (if b then 1 else 0)
  let signed : Int → List Byte := fun x => le 4 (x % 4294967296).toNat
  let index : Option Nat → List Byte := fun x => le 1 (x.getD 255)
  let sourceOf : ReactionSource → List Byte := fun x => match x with
    | .condition c => le 1 0 ++ le 1 c.val
    | .bandAtLeast b => le 1 1 ++ le 1 b
    | .anyPumpFaulted => le 1 2 ++ le 1 0
    | .driveLinkLost => le 1 3 ++ le 1 0
    | .clockHoldover => le 1 4 ++ le 1 0
  let lampOf : LampKind → Nat := fun k => match k with
    | .only .basin => 0
    | .only .jet => 1
    | .only .deck => 2
    | .all => 3
  let kindOf : ReactionKind → List Byte := fun k => match k with
    | .noticeOnly => le 1 0 ++ le 1 0 ++ le 1 0
    | .flagSet n => le 1 1 ++ le 1 n.val ++ le 1 0
    | .showPause => le 1 2 ++ le 1 0 ++ le 1 0
    | .showAbort => le 1 3 ++ le 1 0 ++ le 1 0
    | .plantSafe => le 1 4 ++ le 1 0 ++ le 1 0
    | .zoneHold z => le 1 5 ++ le 1 z.val ++ le 1 0
    | .admitLimit m l => le 1 6 ++ le 1 (if m = .a then 0 else 1) ++ le 1 l
    | .lampLimit k v => le 1 7 ++ le 1 (lampOf k) ++ le 1 v
    | .pumpLock m => le 1 8 ++ le 1 (if m = .a then 0 else 1) ++ le 1 0
  ∀ (s : State) (tag n : Byte), s.Ready →
    exec (.clockRead tag) s = .next (s.replied 0x09#8 tag .ok
      (le 4 s.clock.plantTime.toNat ++ signed s.clock.position ++
        le 1 (match s.clock.state with
          | .stopped => 0
          | .locked => 1
          | .holdover => 2) ++
        le 1 (if s.clock.source = .onCrystal then 0 else 1) ++ le 2 s.clock.stepTimeout ++ le 2 s.clock.markCount ++
        le 2 (s.clock.lastSnap % 65536).toNat ++ le 2 s.clock.holdoverCount)) ∧
    readsRecord s (.showInfo tag n) 0x14#8 tag n 16 (fun k =>
      let e := s.store.dir.get k
      le 1 k.val ++
        le 1 (match e.state with
          | .empty => 0
          | .loading => 1
          | .ready => 2) ++
        le 2 e.first ++ le 2 e.count ++ index e.track ++ le 2 e.preRoll ++ le 2 e.endFade ++ le 2 e.effects ++
        le 1 (if e.source = .onCrystal then 0 else 1) ++ le 2 ((s.store.dir.cells.map (·.count)).sum) ++
        index (s.store.dir.cells.findIdx? (fun e => e.state == .loading)) ++ index s.seq.running) ∧
    exec (.sequencerRead tag) s = .next (s.replied 0x1F#8 tag .ok
      (le 1 (match s.seq.state with
          | .idle => 0
          | .preroll => 1
          | .playing => 2
          | .paused => 3
          | .ending => 4) ++
        le 1 (if s.seq.pausedFrom = .preroll then 0 else 1) ++ index s.seq.running ++
        le 1 (match s.seq.endReason with
          | .none => 255
          | .natural => 1
          | .stopRequest => 2
          | .ceiling => 3
          | .abortRequest => 4
          | .abortReaction => 5
          | .safe => 6) ++
        signed s.seq.endPosition ++ le 2 s.seq.cursor ++ signed s.seq.loopOffset ++ le 2 s.seq.loopStack.length ++
        le 1 s.seq.loopStack.length ++ s.seq.loopStack.flatMap (fun e => le 2 e.cue ++ le 1 e.remaining) ++
        le 2 s.seq.queue.length ++ le 2 (s.seq.queue.filter (·.late)).length ++
        (match s.seq.queue with
          | e :: _ => le 1 1 ++ signed e.issueTime ++ le 2 e.cue
          | [] => le 1 0 ++ le 4 0 ++ le 2 0) ++
        le 2 s.seq.flags.toNat ++ le 2 s.seq.lateCount ++ le 2 s.seq.skipCount ++ le 2 s.seq.issuedCount ++
        (match s.seq.lastMark with
          | some m => le 1 1 ++ le 1 m
          | none => le 1 0 ++ le 1 0))) ∧
    readsRecord s (.channelRead tag n) 0x23#8 tag n 48
      (fun c => (s.jets.channels.get c).bytes c.val s.clock.plantTime) ∧
    readsRecord s (.jetGroupRead tag n) 0x24#8 tag n 16
      (fun g => le 6 (s.jets.groups.get g).members.toNat ++ le 2 (s.jets.groups.get g).lead) ∧
    readsRecord s (.pumpRead tag n) 0x2B#8 tag n 8
      (fun p => (s.water.pumps.get p).bytes p.val (s.water.pumps.get p).flow) ∧
    readsRecord s (.manifoldRead tag n) 0x2D#8 tag n 2
      (fun m =>
        let r := s.water.manifolds.get m
        le 2 r.reserve ++ le 1 r.summary.admitLevel ++ le 4 r.summary.available ++ le 4 r.summary.usable ++
          r.summary.levels.flatMap (fun l => le 4 l.demand ++ le 1 (match l.outcome with
            | .full => 0
            | .scaled => 1
            | .starved => 2
            | .empty => 3)) ++
          index r.summary.scaled ++ le 4 r.summary.granted ++ le 4 r.summary.unallocated ++
          le 4 r.lastUpdate.toNat ++
          [PumpState.stopped, .starting, .running, .stopping, .faulted, .locked].flatMap
            (fun p => le 2 (s.water.pumps.cells.filter
              (fun x => x.cfg.manifold = (if m = 0 then .a else .b) ∧ x.live.state = p)).length)) ∧
    exec (.windRead tag) s = .next (s.replied 0x32#8 tag .ok
      (le 1 (if ∃ c ∈ s.trip.conditions.cells, c.cfg.role = .windPulse then 0 else 1) ++ le 1 s.wind.band ++
        le 1 s.wind.manualBand ++ le 2 s.wind.gateCount ++
        le 2 (min 999 (elapsed s.wind.gateStart s.clock.plantTime)) ++ le 2 s.wind.history.newest ++
        le 2 s.wind.history.middle ++ le 2 s.wind.history.oldest ++ le 2 s.wind.lastAverage ++ le 2 s.wind.calm ++
        le 2 s.wind.bandChanges ++ le 2 s.wind.cfg.k ++ s.wind.cfg.thresholds.flatMap (le 2) ++
        le 2 s.wind.cfg.hysteresis ++ le 2 s.wind.cfg.calmHold ++
        s.wind.zones.cells.flatMap (fun z => le 2 z.applied ++ le 2 z.target ++ le 1 z.sourceBand) ++
        s.wind.cfg.zones.cells.flatMap (fun z => z.factors.flatMap (le 2) ++ le 2 z.drop ++ le 2 z.recover))) ∧
    readsRecord s (.fixtureRead tag n) 0x3C#8 tag n 96 (fun x =>
      let f := s.light.fixtures.get x
      let wide : Colour → List Byte := fun c => le 2 c.r ++ le 2 c.g ++ le 2 c.b ++ le 2 c.w
      le 1 x.val ++ le 2 f.cfg.base ++
        le 1 (match f.cfg.kind with
          | .basin => 0
          | .jet => 1
          | .deck => 2) ++
        index (f.cfg.bound.map (·.val)) ++ le 2 f.cfg.lead ++ wide f.live.fade.start ++ wide f.live.fade.target ++
        le 2 (if f.live.fade.held then f.live.fade.duration
          else min f.live.fade.duration (elapsed f.live.fade.t0 s.clock.plantTime)) ++
        le 2 f.live.fade.duration ++ le 1 f.live.master ++ le 1 (if f.live.mode = .steady then 0 else 1) ++
        le 1 f.live.intensity ++
        le 1 ((if f.live.limits.dry then 1 else 0) + (if f.live.limits.limit then 2 else 0) +
          (if f.live.limits.safe then 4 else 0)) ++
        le 1 f.live.output.r ++ le 1 f.live.output.g ++ le 1 f.live.output.b ++ le 1 f.live.output.w) ∧
    readsRecord s (.fixtureGroupRead tag n) 0x3D#8 tag n 16
      (fun g => le 12 (s.light.groups.get g).members.toNat ++ le 2 (s.light.groups.get g).lead) ∧
    exec (.lightingRead tag) s = .next (s.replied 0x3E#8 tag .ok
      (le 1 s.light.settings.dryLimit ++ le 1 s.light.settings.idleColour.r ++ le 1 s.light.settings.idleColour.g ++
        le 1 s.light.settings.idleColour.b ++ le 1 s.light.settings.idleColour.w ++
        le 1 s.light.settings.idleMaster ++ le 1 s.light.settings.safeWhite ++ le 2 s.light.settings.period ++
        le 4 s.light.frameCount.toNat ++ le 4 s.light.lastFrame.toNat ++ le 2 s.light.lastSlots ++
        le 1 s.light.envelopeRead)) ∧
    (∀ e, s.light.lastEnvelope = some e → s.light.envelopeRead = e) ∧
    readsRecord s (.trackRead tag n) 0x41#8 tag n 64 (fun i => match s.audio.tracks.get i with
      | some t => le 1 1 ++ le 4 t.start ++ le 4 t.frames ++ le 1 (if t.format = .stereo16 then 0 else 1)
      | none => le 1 0 ++ le 4 0 ++ le 4 0 ++ le 1 0) ∧
    readsRecord s (.streamRead tag n) 0x43#8 tag n 4 (fun i =>
      let x := s.audio.streams.get i
      le 1 i.val ++
        le 1 (match x.state with
          | .idle => 0
          | .loading => 1
          | .playing => 2
          | .paused => 3
          | .stopping => 4) ++
        le 1 (if x.pausedFrom = .playing then 0 else 1) ++ le 1 x.track ++
        le 1 (if x.format = .stereo16 then 0 else 1) ++ signed x.startPosition ++ le 4 x.framesOutput ++
        le 4 x.leftToRead ++ le 4 x.leftToPlay ++ le 2 (x.gain.valueAt s.clock.plantTime) ++ le 2 x.gain.target ++
        le 2 (if x.gain.held then x.gain.duration
          else min x.gain.duration (elapsed x.gain.t0 s.clock.plantTime)) ++
        le 2 x.gain.duration ++ le 2 x.share ++ le 2 x.ring.length ++
        byte (match s.audio.read with
          | some r => decide (r.stream = i) && !r.discarded
          | none => false) ++
        le 2 x.silenceLeft ++ le 2 x.underruns ++ byte s.audio.clip ++ le 1 s.audio.envelope ++
        le 2 s.audio.masterGain ++ le 1 s.audio.release) ∧
    exec (.inputRead tag) s = .next (s.replied 0x4B#8 tag .ok
      ((List.range 32).flatMap (fun i => byte (s.trip.samples.getLsbD i)) ++
        s.trip.conditions.cells.flatMap (fun c =>
          (match c.cfg.source with
            | .line i => le 1 0 ++ le 1 i.val
            | .constLow => le 1 1 ++ le 1 0
            | .constHigh => le 1 2 ++ le 1 0) ++
          byte c.cfg.invert ++ le 1 c.cfg.prescale ++ le 1 c.cfg.window ++ le 1 c.cfg.threshold ++
          le 1 (match c.cfg.role with
            | .general => 0
            | .clockStep => 1
            | .clockMark => 2
            | .windPulse => 3)) ++
        s.trip.conditions.cells.flatMap (fun c =>
          byte c.filtered ++ le 1 (c.history.filter (fun x => x != c.filtered)).length) ++
        s.trip.reactions.cells.flatMap (fun r =>
          byte (!r.cfg.inUse) ++ sourceOf r.cfg.source ++
          le 1 (match r.cfg.trigger with
            | .high => 0
            | .low => 1
            | .rise => 2
            | .fall => 3
            | .any => 4) ++
          le 1 (if r.cfg.release = .host then 0 else 1) ++ kindOf r.cfg.kind) ++
        s.trip.reactions.cells.flatMap (fun r => byte r.latch ++ byte (s.isActive r)) ++
        (List.range 8).flatMap (fun b => byte (decide (b ≤ s.wind.band))) ++
        byte (decide (∃ p ∈ s.water.pumps.cells, p.live.state = .faulted)) ++
        byte (decide ((∃ p ∈ s.water.pumps.cells, p.cfg.address ≠ 0) ∧
          ∀ p ∈ s.water.pumps.cells, p.cfg.address ≠ 0 → p.live.state = .faulted ∧ p.live.fault = some .linkLost)) ++
        byte (decide (s.clock.state = .holdover)) ++
        (List.range 4).flatMap (fun z => le 1 (if s.zoneOccupied z then 0 else 1)))) ∧
    exec (.outputRead tag) s = .next (s.replied 0x54#8 tag .ok
      (le 1 (if s.out.mode = .safe then 0 else 1) ++ le 8 s.out.host.toNat ++
        (List.finRange 64).flatMap (fun i =>
          let cfg := s.out.lines.get i
          (match cfg.source with
            | .channelOpening c => le 1 0 ++ le 1 c.val
            | .pumpPermit p => le 1 1 ++ le 1 p.val
            | .plantLive => le 1 2 ++ le 1 0
            | .showActive => le 1 3 ++ le 1 0
            | .tripAny => le 1 4 ++ le 1 0
            | .flag k => le 1 5 ++ le 1 k.val
            | .condition c => le 1 6 ++ le 1 c.val
            | .hostLevel => le 1 7 ++ le 1 0
            | .constLow => le 1 8 ++ le 1 0
            | .constHigh => le 1 9 ++ le 1 0) ++
          byte cfg.invert ++ byte cfg.safeLevel ++
          (match s.shown i.val cfg with
            | .low => le 1 0 ++ le 2 0
            | .high => le 1 1 ++ le 2 0
            | .pwm duty => le 1 2 ++ le 2 duty))))

/-- The payload of a CHANNEL_READ reply with status OK (R192); every curve has nine points (EveryStepKeepsTheRanges).
-/
def Obligations.ChannelReadLayout : Prop :=
  ∀ (c : Channel) (number : Nat) (now : PlantTime), c.cfg.curve.length = 9 →
    let payload := u8 Status.ok.code ++ c.bytes number now
    payload.length = 62 ∧
    fieldAt payload 0 1 0 ∧ fieldAt payload 1 1 number ∧ fieldAt payload 2 1 (manifoldCode c.cfg.manifold) ∧
    fieldAt payload 3 1 c.cfg.zone.val ∧ fieldAt payload 4 1 c.cfg.type.code ∧ fieldAt payload 5 1 c.cfg.level ∧
    fieldAt payload 6 2 c.cfg.kn ∧ (∀ i : Fin 9, fieldAt payload (8 + 2 * i.val) 2 (c.cfg.curve.getD i.val 0)) ∧
    fieldAt payload 26 2 c.cfg.switchedFlow ∧ fieldAt payload 28 2 c.cfg.lead ∧
    fieldAt payload 30 2 c.cfg.normalSlew ∧ fieldAt payload 32 2 c.cfg.tripSlew ∧
    fieldAt payload 34 1 (if c.cfg.configured then 1 else 0) ∧ fieldAt payload 35 1 (c.live.override.getD 0xFF) ∧
    fieldAt payload 36 1 c.level ∧ fieldAt payload 37 1 (if c.live.abortClose then 1 else 0) ∧
    fieldAt payload 38 2 c.live.fade.start ∧ fieldAt payload 40 2 c.live.fade.target ∧
    fieldAt payload 42 2 (c.live.fade.elapsedAt now) ∧ fieldAt payload 44 2 c.live.fade.duration ∧
    fieldAt payload 46 2 c.live.requested ∧ fieldAt payload 48 2 c.live.effective ∧
    fieldAt payload 50 2 c.live.trimUsed ∧ fieldAt payload 52 2 c.live.demand ∧ fieldAt payload 54 2 c.live.grant ∧
    fieldAt payload 56 1 c.live.status.code ∧
    fieldAt payload 57 1 ((if c.live.hold.zone then 1 else 0) + (if c.live.hold.safe then 2 else 0) +
      (if c.live.hold.abort then 4 else 0)) ∧
    fieldAt payload 58 2 c.live.curveOpening ∧ fieldAt payload 60 2 c.live.opening

/-- The payload of a PUMP_READ reply with status OK (R104, R193); the drive fault code byte of a fault that is not the
drive's, or of no fault, is the model's choice, 0 (log 42). -/
def Obligations.PumpReadLayout : Prop :=
  ∀ (p : Pump) (number flow : Nat),
    let payload := u8 Status.ok.code ++ p.bytes number flow
    payload.length = 29 ∧
    fieldAt payload 0 1 0 ∧ fieldAt payload 1 1 number ∧ fieldAt payload 2 1 (manifoldCode p.cfg.manifold) ∧
    fieldAt payload 3 1 p.cfg.address ∧ fieldAt payload 4 2 p.cfg.ratedFlow ∧ fieldAt payload 6 2 p.cfg.minSpeed ∧
    fieldAt payload 8 2 p.cfg.ramp ∧ fieldAt payload 10 2 p.cfg.lead ∧ fieldAt payload 12 1 p.cfg.startTimeout ∧
    fieldAt payload 13 1 p.live.state.code ∧ fieldAt payload 14 2 p.live.target ∧
    fieldAt payload 16 2 p.live.commanded ∧ fieldAt payload 18 2 p.live.actual ∧ fieldAt payload 20 2 p.live.ramp ∧
    fieldAt payload 22 1 ((if p.live.ready then 1 else 0) + (if p.live.running then 2 else 0)) ∧
    fieldAt payload 23 1 p.live.exchange.code ∧ fieldAt payload 24 1 p.live.misses ∧
    fieldAt payload 25 1 (match p.live.fault with
      | none => 0xFF
      | some .linkLost => 0
      | some .startTimeout => 1
      | some (.drive _) => 2) ∧
    fieldAt payload 26 1 (match p.live.fault with
      | some (.drive c) => c
      | _ => 0) ∧
    fieldAt payload 27 2 flow

/-! ### Show time -/

/-- A plant millisecond raises plant time by one; show position rises by one exactly when the sequencer counts
locally, and stands otherwise; no configuration, source level's record or flash byte changes (R1, R5). The new show
position p ends the run's states: PREROLL goes over to PLAYING, with its SHOW notice, at the first p of 0 or more
(R42); in PLAYING the cues that are due are read and issued (ReadingACue), and the run then ends with reason NATURAL
exactly when the cursor stands at the cue count, the queue is empty and S0 is IDLE (R47; the order within the event:
log 12, log 31); at 2 000 000 000 it ends with reason CEILING (R48), also where the issue of the due entries makes the
natural end stand there too, which is the model's choice (log 11); ENDING stands below its end position and enters
IDLE with its end reason kept at the first p at or above it, an end fade of 0 at once (R46). The whole is the law of a
new show position (StepAndMarkEvents), then the free line's choice (log 14). -/
def Obligations.PlantMillisecondCountsTime : Prop :=
  (∀ s : State, s.judgePreroll =
    if s.seq.state = .preroll ∧ 0 ≤ s.clock.position then
      { s with seq := { s.seq with state := .playing },
               link := s.link.tell (.run .state s.seq.running .preroll .playing s.seq.endReason s.clock.position 0) }
    else s) ∧
  (∀ s : State, s.atNaturalEnd = true ↔ s.seq.state = .playing ∧ s.seq.cursor = s.seq.run.count ∧ s.seq.queue = [] ∧
    (s.audio.streams.get 0).state = .idle) ∧
  ∀ s : State, s.phase = .running →
    (¬ s.CountsLocally →
      exec .plantMillisecond s =
        .next ({ s with clock := { s.clock with plantTime := s.clock.plantTime + 1 },
                        link := s.link.choose }).holdFades) ∧
    (s.CountsLocally → ∃ t, exec .plantMillisecond s = .next t ∧
      t.clock.plantTime = s.clock.plantTime + 1 ∧ t.clock.position = s.clock.position + 1 ∧
      t.configuration = s.configuration ∧ t.flash = s.flash ∧ t.wind = s.wind ∧
      t.trip.conditions = s.trip.conditions ∧ t.trip.samples = s.trip.samples ∧ t.out.host = s.out.host ∧
      t.pending = s.pending ∧ t.seq.run = s.seq.run ∧
      (let p := s.clock.position + 1
       let issuing := s.seq.state = .preroll ∧ 0 ≤ p ∨ s.seq.state = .playing
       let ended : EndReason → Prop := fun reason =>
         t.seq.endReason = reason ∧ t.seq.queue = [] ∧ t.seq.endPosition = p + s.seq.run.endFade ∧
         (0 < s.seq.run.endFade → t.seq.state = .ending) ∧ (s.seq.run.endFade = 0 → t.seq.state = .idle ∧ t.AtRest)
       (s.seq.state = .preroll → p < 0 → t.seq.state = .preroll) ∧
       (issuing → p < 2000000000 →
         t.seq.state = .playing ∧
           ¬ (t.seq.cursor = t.seq.run.count ∧ t.seq.queue = [] ∧ (t.audio.streams.get 0).state = .idle) ∨
         t.seq.cursor = t.seq.run.count ∧ ended .natural) ∧
       (issuing → p < 2000000000 →
         let ticked := ({ s with clock := { s.clock with plantTime := s.clock.plantTime + 1 },
                                 link := s.link.choose }).holdFades
         let v := (ticked.movePosition 1).judgePreroll.judgeStarts
         let r := readAndIssue v.turns v
         (r.atNaturalEnd = false → t = r.transmit ∧ t.seq.state = .playing) ∧
         (r.atNaturalEnd = true → t = (r.beginEnding .natural).transmit ∧ ended .natural)) ∧
       (issuing → 2000000000 ≤ p → ended .ceiling) ∧
       (let ticked := ({ s with clock := { s.clock with plantTime := s.clock.plantTime + 1 },
                                link := s.link.choose }).holdFades
        t = (ticked.movePosition 1).newPosition.transmit) ∧
       (s.seq.state = .ending → p < s.seq.endPosition → t.seq = s.seq) ∧
       (s.seq.state = .ending → s.seq.endPosition ≤ p →
         t.seq.state = .idle ∧ t.AtRest ∧ t.seq.endReason = s.seq.endReason)))

/-- The step timeout: when LOCKED and its time has elapsed since the last step, the clock holds over, show position
rises by the timeout, the count of holdovers rises and the timeout is disarmed; a reaction may end the run (R8). A run
whose catch-up reaches 2 000 000 000 is in ENDING or IDLE after it whatever reactions act (R48; the ending comes
before them: log 13), and its end reason in ENDING is CEILING also where the natural end stands there too, which is
the model's choice (log 11). A timeout that is not due does nothing (log 1). A step on the same plant millisecond: log
45. -/
def Obligations.StepTimeoutHoldsOver : Prop :=
  ∀ s : State, s.phase = .running →
    (∀ a, s.clock.state = .locked → s.clock.armed = some a → s.clock.stepTimeout ≤ elapsed a s.clock.plantTime →
      ∃ t, exec .stepTimeout s = .next t ∧ t.clock.position = s.clock.position + s.clock.stepTimeout ∧
        t.clock.holdoverCount = min 65535 (s.clock.holdoverCount + 1) ∧ t.clock.armed = none ∧
        (t.clock.state = .holdover ∨ t.clock.state = .stopped ∧ t.seq.state = .idle) ∧
        (let p := s.clock.position + s.clock.stepTimeout
         s.seq.state = .playing → 2000000000 ≤ p →
           t.seq.state = .idle ∨ t.seq.state = .ending ∧ t.seq.endReason = .ceiling ∧ t.seq.queue = [] ∧
             t.seq.endPosition = p + s.seq.run.endFade) ∧
        t.clock.plantTime = s.clock.plantTime ∧ t.clock.source = s.clock.source ∧ t.clock.markCount = s.clock.markCount ∧
        t.clock.lastSnap = s.clock.lastSnap ∧ t.configuration = s.configuration ∧ t.flash = s.flash ∧
        s.holdOver.link = s.link.tell (.clock .holdover 0 (s.clock.position + s.clock.stepTimeout) s.clock.plantTime)) ∧
    ((∀ a, s.clock.state = .locked → s.clock.armed = some a → elapsed a s.clock.plantTime < s.clock.stepTimeout) →
      exec .stepTimeout s = .next (s.passed []))

/-- A step event: taken only in PLAYING or ENDING with source EXTERNAL at or above position 0; in LOCKED it raises
show position by one, in HOLDOVER it locks without moving show position; else it is discarded (R6). A mark event: in
PLAYING with source EXTERNAL show position snaps to the nearest multiple of 1000, the higher one from halfway, and the
mark count and the last snap are written; else it is discarded (R11). A snap of an amount other than 0 makes a CLOCK
notice with cause SNAP, the amount, the new show position and plant time, and is then a new show position (R15), as a
step in LOCKED is. What a new show position does (the order of its readers: log 12): PREROLL may end
(PlantMillisecondCountsTime, R42); ENDING goes over to IDLE, at rest with its end reason kept, at or above its end
position (R46); while the sequencer is not PAUSED every LOADING stream whose start position is reached enters PLAYING,
at a slot boundary, and no other stream changes (R147; the pause: log 13); in PLAYING at 2 000 000 000 or more the
ending with reason CEILING begins, before or after the issue of the due entries, which is a free choice (R48; the
reason and the choice: log 11); else the cues that are due are read and issued and the natural end is judged
(ReadingACue). An ending empties the queue, keeps its reason, sets its end position, stands in ENDING with its SHOW
notice, and goes over to IDLE at once when its end fade is 0 (R45, R46); whatever its reason, it gives the blocks what
that of a SHOW_STOP gives them (StopAndAbort). -/
def Obligations.StepAndMarkEvents : Prop :=
  (∀ s : State,
     (s.judgeStarts = if s.seq.state = .paused then s else { s with audio := { s.audio with
       streams := s.audio.streams.map (fun x =>
         if x.state = .loading ∧ x.startPosition ≤ s.clock.position then
           { x with state := .playing, boundary := true }
         else x) } }) ∧
     (¬ (s.seq.state = .ending ∧ s.seq.endPosition ≤ s.clock.position) → s.judgeEnd = s) ∧
     (s.seq.state = .ending → s.seq.endPosition ≤ s.clock.position →
       let t := s.judgeEnd
       t.seq.state = .idle ∧ t.AtRest ∧ t.seq.endReason = s.seq.endReason ∧ t.clock.position = s.clock.position ∧
       (s.NoReactions →
         t.seq = { s.seq with state := .idle, running := none, queue := [], loopStack := [] } ∧
         t.clock = { s.clock with state := .stopped, armed := none } ∧
         t.link = s.link.tell (.run .state s.seq.running .ending .idle s.seq.endReason s.clock.position 0))) ∧
     (let v := s.judgePreroll.judgeEnd.judgeStarts
      s.newPosition =
        if v.seq.state = .playing ∧ 2000000000 ≤ v.clock.position then v.meetCeiling.judgeEnd else v.settle) ∧
     (s.headDue = false → s.meetCeiling = s.enterEnding .ceiling) ∧
     (s.headDue = true →
       let u : State := { s with free := s.free + 1 }
       s.meetCeiling = u.enterEnding .ceiling ∨
         s.meetCeiling = (issueDue s.seq.queue.length u).enterEnding .ceiling) ∧
     (∀ n, issueDue (n + 1) s = if s.headDue then issueDue n s.issueHead else s) ∧
     (issueDue s.seq.queue.length s).headDue = false ∧
     ∀ reason : EndReason,
       let t := s.enterEnding reason
       let p := s.clock.position
       s.beginEnding reason = t.judgeEnd ∧
       t.seq = { s.seq with state := .ending, queue := [], endReason := reason,
                            endPosition := p + s.seq.run.endFade } ∧
       t.clock.position = p ∧
       t.link = s.link.tell (.run .state s.seq.running s.seq.state .ending reason p 0) ∧
       (let stopped := s.enterEnding .stopRequest
        t = { stopped with seq := { stopped.seq with endReason := reason }, link := t.link })) ∧
  (∀ s : State,
     ((s.seq.state ≠ .playing ∧ s.seq.state ≠ .ending) ∨ s.clock.source ≠ .external ∨ s.clock.position < 0 ∨
       s.clock.state = .stopped → s.stepEvent = s) ∧
     (s.seq.state = .playing ∨ s.seq.state = .ending → s.clock.source = .external → 0 ≤ s.clock.position →
       (s.clock.state = .locked → s.stepEvent.clock.position = s.clock.position + 1 ∧
         (s.stepEvent.seq.state = .idle ∨ s.stepEvent.clock.armed = some s.clock.plantTime ∧
           s.stepEvent.clock.state = .locked) ∧
         s.stepEvent =
           ({ s with clock := { s.clock with
               position := s.clock.position + 1, armed := some s.clock.plantTime } } : State).newPosition) ∧
       (s.clock.state = .holdover → s.stepEvent.clock.position = s.clock.position ∧
         (s.NoReactions → s.stepEvent =
           { s with clock := { s.clock with state := .locked, armed := some s.clock.plantTime } })))) ∧
  ((∀ s : State, s.seq.state ≠ .playing ∨ s.clock.source ≠ .external → s.markEvent = s) ∧
   (∀ s : State, s.seq.state = .playing → s.clock.source = .external →
     s.markEvent.clock.position % 1000 = 0 ∧ s.markEvent.clock.position - s.clock.position ≤ 500 ∧
     -500 < s.markEvent.clock.position - s.clock.position ∧
     s.markEvent.clock.lastSnap = s.markEvent.clock.position - s.clock.position ∧
     s.markEvent.clock.markCount = min 65535 (s.clock.markCount + 1) ∧
     s.markEvent.configuration = s.configuration ∧
     (let p := s.clock.position
      let d : Int := if p % 1000 < 500 then -(p % 1000) else 1000 - p % 1000
      let snapped : State := { s with clock := { s.clock with
        position := p + d, markCount := min 65535 (s.clock.markCount + 1), lastSnap := d } }
      (d = 0 → s.markEvent = snapped) ∧
      (d ≠ 0 → s.markEvent =
        ({ snapped with link := s.link.tell (.clock .snap d (p + d) s.clock.plantTime) } : State).newPosition))))

/-! ### Shows and cues -/

/-- SHOW_OPEN: the five checks in order, then a LOADING entry above all used records; the reply carries its first
store index (R29). -/
def Obligations.ShowOpenRequest : Prop :=
  ∀ (s : State) (tag : Byte) (a : ShowOpenArgs), s.Ready →
    (s.seq.state ≠ .idle → exec (.showOpen tag a) s = .next (s.replied 0x10#8 tag .showRunning [])) ∧
    (s.seq.state = .idle →
      ¬ (a.number.toNat < 16 ∧ (a.track.toNat < 64 ∨ a.track = 0xFF#8) ∧ a.preRoll.toNat ≤ 4000 ∧
        a.endFade.toNat ≤ 10000 ∧ a.effects.toNat ≤ 3 ∧ a.source.toNat ≤ 1) →
      exec (.showOpen tag a) s = .next (s.replied 0x10#8 tag .badArgument [])) ∧
    (∀ n : Fin 16, s.seq.state = .idle → a.number.toNat = n.val →
      (a.track.toNat < 64 ∨ a.track = 0xFF#8) → a.preRoll.toNat ≤ 4000 → a.endFade.toNat ≤ 10000 →
      a.effects.toNat ≤ 3 → a.source.toNat ≤ 1 →
      exec (.showOpen tag a) s = .next (
        if (s.store.dir.get n).state = .empty ∧ ∀ e ∈ s.store.dir.cells, e.state ≠ .loading then
          (s.setEntry n
              { state := .loading, first := s.store.used, count := 0,
                track := if a.track = 0xFF#8 then none else some a.track.toNat,
                preRoll := a.preRoll.toNat, endFade := a.endFade.toNat, effects := a.effects.toNat,
                source := if a.source = 0#8 then .onCrystal else .external }).replied 0x10#8 tag .ok
            (le 2 s.store.used)
        else s.replied 0x10#8 tag .badState []))

/-- SHOW_APPEND: the checks in order; records are taken all together or not at all, on top of the LOADING show's range
(R30). A record of 16 bytes gives its cue field by field, and none where its kind, condition kind, JET level (0 to 7 or
KEEP), LAMP mode or AUDIO operation code is not one of those listed (R191; check 5 of R30). -/
def Obligations.ShowAppendRequest : Prop :=
  (∀ r : List Byte, r.length = 16 →
    let b : Nat → Nat := fun k => (r.getD k 0#8).toNat
    let w : Nat → Nat := fun k => b k + 256 * b (k + 1)
    let level : Option LevelCode :=
      if b 12 < 8 then some (.level (b 12)) else if b 12 = 0xFF then some .keep else none
    let mode : Option LampMode := if b 15 = 0 then some .steady else if b 15 = 1 then some .follow else none
    let sound : Option CueBody :=
      if b 8 = 0 then some (.audioStart (b 9) (w 10)) else if b 8 = 1 then some (.audioStop (w 12))
      else if b 8 = 2 then some (.audioGain (w 10) (w 12)) else none
    let body : Option CueBody :=
      if b 3 = 0 then level.map (fun l => .jet (w 8) (w 10) l)
      else if b 3 = 1 then some (.pump (w 8) (w 10))
      else if b 3 = 2 then mode.map (fun m => .lamp (b 8) (b 9) (b 10) (b 11) (w 12) (b 14) m)
      else if b 3 = 3 then sound
      else if b 3 = 4 then some (.flag (BitVec.ofNat 16 (w 8)) (BitVec.ofNat 16 (w 10)))
      else if b 3 = 5 then some (.mark (b 8))
      else if b 3 = 6 then some (.loop (w 8) (b 10)) else none
    let kinds : List CondKind :=
      [.always, .flagSet, .flagClear, .take, .windBelow, .windAtLeast, .zoneClear, .zoneOccupied]
    cueOf r = match body, kinds[b 4]? with
      | some x, some cond =>
        some { time := b 0 + 256 * b 1 + 65536 * b 2, cond := cond, arg := b 5, target := b 6,
               group := decide (b 7 % 2 = 1), body := x }
      | _, _ => none) ∧
  ∀ (s : State) (tag : Byte), s.Ready →
    (∀ p, s.seq.state ≠ .idle → exec (.showAppend tag p) s = .next (s.replied 0x11#8 tag .showRunning [])) ∧
    (∀ p : List Byte, s.seq.state = .idle →
      p.length % 16 ≠ 1 ∨ p.length < 17 ∨ 513 < p.length →
      exec (.showAppend tag p) s = .next (s.replied 0x11#8 tag .badLength [])) ∧
    (∀ (b : Byte) (rs : List (List Byte)), s.seq.state = .idle → 1 ≤ rs.length → rs.length ≤ 32 →
      (∀ r ∈ rs, r.length = 16) →
      (16 ≤ b.toNat → exec (.showAppend tag (b :: rs.flatten)) s = .next (s.replied 0x11#8 tag .badArgument [])) ∧
      (∀ n : Fin 16, b.toNat = n.val →
        ((s.store.dir.get n).state ≠ .loading →
          exec (.showAppend tag (b :: rs.flatten)) s = .next (s.replied 0x11#8 tag .badState [])) ∧
        ((s.store.dir.get n).state = .loading →
          (∀ k (h : k < rs.length), cueOf rs[k] = none → (∀ j (hj : j < k), cueOf (rs[j]'(by omega)) ≠ none) →
            exec (.showAppend tag (b :: rs.flatten)) s = .next (s.replied 0x11#8 tag .badArgument (le 1 k))) ∧
          (∀ cs : List Cue, rs.map cueOf = cs.map some →
            exec (.showAppend tag (b :: rs.flatten)) s = .next (
              if s.store.used + cs.length ≤ 4096 then
                ({ s with store :=
                    { cues := s.store.cues.take ((s.store.dir.get n).first + (s.store.dir.get n).count) ++ cs,
                      dir := s.store.dir.set n (
                        { s.store.dir.get n with count := (s.store.dir.get n).count + cs.length }) } }).replied
                  0x11#8 tag .ok (le 2 ((s.store.dir.get n).count + cs.length))
              else s.replied 0x11#8 tag .storeFull [])))))

/-- SHOW_SEAL: the checks in order; when the passes find no fault the show is READY and nothing else changes; else the
first fault's status and cue index are replied and the show stays LOADING (R31). -/
def Obligations.ShowSealRequest : Prop :=
  ∀ (s : State) (tag number : Byte), s.Ready →
    (s.seq.state ≠ .idle → exec (.showSeal tag number) s = .next (s.replied 0x12#8 tag .showRunning [])) ∧
    (s.seq.state = .idle → 16 ≤ number.toNat →
      exec (.showSeal tag number) s = .next (s.replied 0x12#8 tag .badArgument [])) ∧
    (∀ n : Fin 16, s.seq.state = .idle → number.toNat = n.val → (s.store.dir.get n).state ≠ .loading →
      exec (.showSeal tag number) s = .next (s.replied 0x12#8 tag .badState [])) ∧
    (∀ n : Fin 16, s.seq.state = .idle → number.toNat = n.val → (s.store.dir.get n).state = .loading →
      let fault := sealFault (s.store.cuesOf (s.store.dir.get n)) (s.store.dir.get n).effects
      (fault = none → exec (.showSeal tag number) s = .next
        ((s.setEntry n { s.store.dir.get n with state := .ready }).replied 0x12#8 tag .ok [])) ∧
      (∀ status k, fault = some (status, k) →
        exec (.showSeal tag number) s = .next (s.replied 0x12#8 tag status (le 2 k))))

/-- What the passes of a seal let through, and nothing else: times that do not fall and stay at or below 3 600 000, no
bad target, and every LOOP cue jumps back over at least 100 ms to a place that cuts no other loop, inside at most four
loops (R32, R33, R34, R35). What they refuse, and with what: the passes run in the order order, target, loop, nesting,
each over the whole show, and the answer is the status of the first pass that finds a fault with the lowest cue index
at which it does: BAD_ORDER, BAD_TARGET, BAD_LOOP, LOOP_NESTING (R31 to R35). A bad target is an index out of its
kind's range, an AUDIO cue on a group or on a stream above S3 or above the declared count, a START on S0 or of a track
above 63, or a condition's argument out of its range; a LOOP cue has neither target nor condition (R33). -/
def Obligations.SealedShowsAreOrdered : Prop :=
  (∀ (c : Cue) (effects : Nat), c.badTarget effects = true ↔
    (∀ t n, c.body ≠ .loop t n) ∧
    ((c.cond = .flagSet ∨ c.cond = .flagClear ∨ c.cond = .take) ∧ 15 < c.arg ∨
      (c.cond = .windBelow ∨ c.cond = .windAtLeast) ∧ 7 < c.arg ∨
      (c.cond = .zoneClear ∨ c.cond = .zoneOccupied) ∧ 3 < c.arg ∨
      match c.body with
      | .jet .. => (if c.group = true then 15 else 47) < c.target
      | .pump .. => (if c.group = true then 1 else 7) < c.target
      | .lamp .. => (if c.group = true then 15 else 95) < c.target
      | .audioStart track _ => c.group = true ∨ 3 < c.target ∨ effects < c.target ∨ c.target = 0 ∨ 63 < track
      | .audioStop _ => c.group = true ∨ 3 < c.target ∨ effects < c.target
      | .audioGain .. => c.group = true ∨ 3 < c.target ∨ effects < c.target
      | _ => False)) ∧
  (∀ (cs : List Cue) (effects : Nat), sealFault cs effects = none ↔
    cs.Pairwise (fun a b => a.time ≤ b.time) ∧ (∀ c ∈ cs, c.time ≤ 3600000 ∧ c.badTarget effects = false) ∧
    ∀ i (h : i < cs.length), ∀ t count, cs[i].body = .loop t count →
      ∃ ht : t < i, (cs[t]'(by omega)).time + 100 ≤ cs[i].time ∧
        (∀ j (hj : j < i), ∀ u n, (cs[j]'(by omega)).body = .loop u n → ¬ (u < t ∧ t ≤ j)) ∧
        ((List.range cs.length).filter (fun j =>
          match cs[j]? with
          | some c => (match c.body with
            | .loop u _ => j = i ∨ (i < j ∧ u ≤ i)
            | _ => false)
          | none => false)).length ≤ 4) ∧
  ∀ (cs : List Cue) (effects : Nat) (status : Status) (k : Nat),
    let first : (Nat → Prop) → Prop := fun fault => fault k ∧ ∀ j, j < k → ¬ fault j
    let never : (Nat → Prop) → Prop := fun fault => ∀ j, ¬ fault j
    let disorder : Nat → Prop := fun i => ∃ c, cs[i]? = some c ∧
      (3600000 < c.time ∨ ∃ j b, i = j + 1 ∧ cs[j]? = some b ∧ c.time < b.time)
    let bad : Nat → Prop := fun i => ∃ c, cs[i]? = some c ∧ c.badTarget effects = true
    let loop : Nat → Nat → Prop := fun i t => ∃ c n, cs[i]? = some c ∧ c.body = .loop t n
    let crooked : Nat → Prop := fun i => ∃ t, loop i t ∧
      (i ≤ t ∨ (∃ c b, cs[i]? = some c ∧ cs[t]? = some b ∧ c.time < b.time + 100) ∨
        ∃ j u, j < i ∧ loop j u ∧ u < t ∧ t ≤ j)
    let deep : Nat → Prop := fun i => ∃ t, loop i t ∧ 4 < ((List.range cs.length).filter (fun j =>
      match cs[j]? with
      | some c => (match c.body with
        | .loop u _ => j = i ∨ (i < j ∧ u ≤ i)
        | _ => false)
      | none => false)).length
    sealFault cs effects = some (status, k) ↔
      status = .badOrder ∧ first disorder ∨
      never disorder ∧ status = .badTarget ∧ first bad ∨
      never disorder ∧ never bad ∧ status = .badLoop ∧ first crooked ∨
      never disorder ∧ never bad ∧ never crooked ∧ status = .loopNesting ∧ first deep

/-- SHOW_ERASE: the checks come first; the entry becomes EMPTY and its records leave the store, those above moving down
in order; the first cue index of each other show that starts at or above the erased range's end falls by the erased
count, and nothing else of any other entry changes; so every other show keeps its fields and its cues, in order, for all
shows whose range lies wholly below or above the erased one (R36). -/
def Obligations.ShowEraseRequest : Prop :=
  ∀ (s : State) (tag number : Byte), s.Ready →
    (s.seq.state ≠ .idle → exec (.showErase tag number) s = .next (s.replied 0x13#8 tag .showRunning [])) ∧
    (s.seq.state = .idle → 16 ≤ number.toNat →
      exec (.showErase tag number) s = .next (s.replied 0x13#8 tag .badArgument [])) ∧
    (∀ n : Fin 16, s.seq.state = .idle → number.toNat = n.val →
      exec (.showErase tag number) s = .next
        (({ s with store := s.store.eraseShow n }).replied 0x13#8 tag .ok []) ∧
      ((s.store.dir.get n).state = .empty → s.store.eraseShow n = s.store) ∧
      ((s.store.dir.get n).state ≠ .empty → (s.store.eraseShow n).dir.get n = .blank ∧
        (s.store.eraseShow n).cues =
          s.store.cues.take (s.store.dir.get n).first ++ s.store.cues.drop (s.store.dir.get n).stop ∧
        ∀ m : Fin 16, m ≠ n → (s.store.eraseShow n).dir.get m =
          if (s.store.dir.get m).state ≠ .empty ∧ (s.store.dir.get n).stop ≤ (s.store.dir.get m).first then
            { s.store.dir.get m with first := (s.store.dir.get m).first - (s.store.dir.get n).count }
          else s.store.dir.get m) ∧
      (∀ m : Fin 16, m ≠ n → (s.store.dir.get m).state ≠ .empty →
        (s.store.dir.get m).stop ≤ (s.store.dir.get n).first ∨ (s.store.dir.get n).stop ≤ (s.store.dir.get m).first →
        (s.store.dir.get n).stop ≤ s.store.cues.length →
        (s.store.eraseShow n).cuesOf ((s.store.eraseShow n).dir.get m) = s.store.cuesOf (s.store.dir.get m) ∧
        { (s.store.eraseShow n).dir.get m with first := (s.store.dir.get m).first } = s.store.dir.get m))

/-! ### The Sequencer -/

/-- SHOW_START: the checks in order; then the run's fields, counters and show clock stand as the start leaves them,
and with no reaction in use a show with pre-roll stands in PREROLL (R3, R38, R40, R41). The start splits the slot pool
by the declared effect streams (R143) and, from a plant at rest (EveryStepKeepsIdleAtRest), starts S0 on the show's
track at start position 0 with gain 4096, LOADING, or PLAYING at once with a pre-roll of 0, its first refill read
begun when the flash interface is free (R144, R146; the interface while a flash request waits: log 20; the fade's
start time: log 17); with no track the streams are as they were; the effect streams stay IDLE with their gains
whatever the pre-roll. The start makes the SHOW notice of its change of state (R64). With no reaction in use the
request is that start, then the event's reading and issuing (R51). The order of the reply and the notices of one
event: log 14. -/
def Obligations.ShowStartBeginsARun : Prop :=
  ∀ (s : State) (tag number : Byte), s.Ready →
    (s.seq.state ≠ .idle → exec (.showStart tag number) s = .next (s.replied 0x18#8 tag .showRunning [])) ∧
    (s.seq.state = .idle → 16 ≤ number.toNat →
      exec (.showStart tag number) s = .next (s.replied 0x18#8 tag .badArgument [])) ∧
    (∀ n : Fin 16, s.seq.state = .idle → number.toNat = n.val →
      let e := s.store.dir.get n
      let shares : Fin 4 → Nat := fun i =>
        if e.effects = 0 then (if i = 0 then 16 else 0) else if e.effects = 1 then (if i.val < 2 then 8 else 0) else 4
      (s.out.mode = .safe → exec (.showStart tag number) s = .next (s.replied 0x18#8 tag .plantSafe [])) ∧
      (s.out.mode = .live → e.state ≠ .ready →
        exec (.showStart tag number) s = .next (s.replied 0x18#8 tag .notReady [])) ∧
      (∀ k : Fin 64, s.out.mode = .live → e.state = .ready → e.track = some k.val → s.audio.tracks.get k = none →
        exec (.showStart tag number) s = .next (s.replied 0x18#8 tag .noTrack [])) ∧
      (s.out.mode = .live → e.state = .ready →
        (e.track = none ∨ ∃ k : Fin 64, e.track = some k.val ∧ (s.audio.tracks.get k).isSome) →
        (∃ t, exec (.showStart tag number) s = .next t ∧
          t.seq.run = { first := e.first, count := e.count, track := e.track, preRoll := e.preRoll,
                        endFade := e.endFade, effects := e.effects } ∧
          t.clock.position = -(e.preRoll : Int) ∧ t.clock.source = e.source ∧ t.clock.markCount = 0 ∧
          t.clock.lastSnap = 0 ∧ t.clock.holdoverCount = 0 ∧ t.clock.armed = none ∧
          t.clock.plantTime = s.clock.plantTime ∧ t.audio.clip = false ∧ t.configuration = s.configuration ∧
          t.flash = s.flash ∧ t.out.host = s.out.host ∧
          (s.NoReactions → 0 < e.preRoll → t.seq.state = .preroll ∧ t.seq.running = some n.val ∧
            t.seq.endReason = .none ∧ t.clock.state = (if e.source = .onCrystal then .locked else .holdover) ∧
            t.out.mode = .live ∧ ∀ i : Fin 4, (t.audio.streams.get i).share = shares i)) ∧
        (s.NoReactions → exec (.showStart tag number) s = .next
          (((({ s with link := { s.link.choose with rx := .hunting } }).startRun n.val e).settle).ok 0x18#8 tag).transmit) ∧
        (let u := s.startRun n.val e
         let shared : Fin 4 → Stream := fun i => { s.audio.streams.get i with underruns := 0, share := shares i }
         (∀ i : Fin 4, (u.audio.streams.get i).share = (shared i).share ∧ (u.audio.streams.get i).underruns = 0) ∧
         u.link = s.link.tell (.run .state (some n.val) .idle (if e.preRoll = 0 then .playing else .preroll) .none
           (-(e.preRoll : Int)) 0) ∧
         (s.AtRest → ∀ i : Fin 4, i ≠ 0 ∨ e.track = none →
           (u.audio.streams.get i).state = .idle ∧ (u.audio.streams.get i).gain = (s.audio.streams.get i).gain) ∧
         (e.track = none → (∀ i : Fin 4, u.audio.streams.get i = shared i) ∧ u.audio.read = s.audio.read) ∧
         (∀ (k : Fin 64) (track : Track), e.track = some k.val → s.audio.tracks.get k = some track → s.AtRest →
           let begins : Prop := s.audio.read = none ∧ s.flash.op = none ∧ 0 < track.frames
           let loaded : Stream := { shared 0 with
             state := if e.preRoll = 0 then .playing else .loading, track := k.val, format := track.format,
             startPosition := 0, nextAddress := track.start, leftToRead := track.frames, leftToPlay := track.frames,
             framesOutput := 0, silenceLeft := 0, silencePasses := false, ring := [], headPos := 0,
             boundary := decide (e.preRoll = 0),
             gain := { (s.audio.streams.get 0).gain with start := 4096, target := 4096, duration := 0 } }
           (∀ i : Fin 4, i ≠ 0 → u.audio.streams.get i = shared i) ∧
           (begins → u.audio.streams.get 0 =
               { loaded with nextAddress := track.start + 512 * track.format.frameBytes,
                             leftToRead := track.frames - 512 } ∧
             u.audio.read = some { stream := 0, address := track.start, frames := min 512 track.frames,
                                   format := track.format, discarded := false }) ∧
           (¬ begins → u.audio.streams.get 0 = loaded ∧
             u.audio.read = s.audio.read.map
               (fun r => if r.stream = 0 then { r with discarded := true } else r)))) ∧
        (s.startRun n.val e).seq =
          { s.seq with
            state := if e.preRoll = 0 then .playing else .preroll, running := some n.val,
            run := { first := e.first, count := e.count, track := e.track, preRoll := e.preRoll, endFade := e.endFade,
                     effects := e.effects },
            loopStack := [], cursor := 0, loopOffset := 0, lateCount := 0, skipCount := 0, issuedCount := 0,
            lastMark := none, endReason := .none }))

/-- SHOW_PAUSE is taken in PREROLL and PLAYING, freezes the streams that give frames, disarms the step timeout and
changes nothing else; SHOW_RESUME is taken in PAUSED, gives each stream paused the state it was paused from, goes back
to the state the run was paused from with its SHOW notice, and arms the step timeout of a locked external clock again;
the cues that are due are then read and issued and the natural end is judged (ReadingACue), and the reply is OK (R10,
R43, R44, R64, R155, R189). The order of the reply and the notices of one event: log 14. -/
def Obligations.PauseAndResume : Prop :=
  (∀ x : Stream, x.pause =
    if x.state = .playing then { x with state := .paused, pausedFrom := .playing }
    else if x.state = .stopping then { x with state := .paused, pausedFrom := .stopping } else x) ∧
  ∀ (s : State) (tag : Byte), s.Ready →
    (s.seq.state ≠ .preroll → s.seq.state ≠ .playing →
      exec (.showPause tag) s = .next (s.replied 0x19#8 tag .badState [])) ∧
    (∀ p : PausedFrom, s.seq.state = p.back →
      exec (.showPause tag) s = .next
        ({ s with
            seq := { s.seq with state := .paused, pausedFrom := p },
            clock := { s.clock with armed := none },
            audio := { s.audio with streams := s.audio.streams.map Stream.pause } }.repliedTelling
          [.run .state s.seq.running p.back .paused s.seq.endReason s.clock.position 0] 0x19#8 tag .ok [])) ∧
    (s.seq.state ≠ .paused → exec (.showResume tag) s = .next (s.replied 0x1A#8 tag .badState [])) ∧
    (s.seq.state = .paused → ∃ t, exec (.showResume tag) s = .next t ∧
      t.clock.position = s.clock.position ∧ t.clock.source = s.clock.source ∧
      (s.seq.pausedFrom = .preroll → t.seq.state = .preroll) ∧
      (s.seq.pausedFrom = .playing → t.seq.state = .playing ∨ t.seq.state = .ending ∨ t.seq.state = .idle) ∧
      (t.seq.state ≠ .idle → t.clock = { s.clock with
        armed := if s.clock.source = .external ∧ s.clock.state = .locked then some s.clock.plantTime
          else s.clock.armed }) ∧
      t.configuration = s.configuration ∧ t.flash = s.flash ∧
      (let back : SeqState := if s.seq.pausedFrom = .preroll then .preroll else .playing
       let resumed : Stream → Stream := fun x =>
         if x.state = .paused then
           { x with state := if x.pausedFrom = .playing then .playing else .stopping }
         else x
       let link : LinkPort := ({ s.link.choose with rx := .hunting } : LinkPort).tell
         (.run .state s.seq.running .paused back s.seq.endReason s.clock.position 0)
       let armed := if s.clock.source = .external ∧ s.clock.state = .locked then some s.clock.plantTime
         else s.clock.armed
       let u : State := { s with
         seq := { s.seq with state := back },
         clock := { s.clock with armed := armed },
         audio := { s.audio with streams := s.audio.streams.map resumed },
         link := link }
       t = (u.settle.ok 0x1A#8 tag).transmit))

/-- SHOW_STOP: taken in PREROLL, PLAYING and PAUSED. With an end fade the sequencer stands in ENDING, its end position
the end fade above show position, every channel fading to 0 over it, every fixture given the idle look over it, every
pump that takes targets going to 0 at its default ramp, every PLAYING or STOPPING stream fading to silence over 500
ms, every LOADING or PAUSED one IDLE, the queue empty; with an end fade of 0 it is at rest at once (R45, R46, R91,
R131, R151). With no reaction in use the link holds the SHOW notices of the changes of state and the OK reply (R64,
R189); that the reply goes ahead of the notices of its own event, and that the two SHOW notices of a stop with an end
fade of 0 are merged as one with count 2, none being sent between them (R46), is the model's choice of the order
within one event (log 14). SHOW_ABORT: refused in IDLE; else the run ends at once: the sequencer is at rest, every
channel closes to height 0 with its abort close set, every fixture has the idle look at once, every pump that takes
targets goes to 0 at its default ramp, and the pool is whole again (R49, R50, R75, R91, R131). The idle look fades a
DECK to the idle colour at the idle master, STATIC, and every other fixture to black at the master and mode it has
(R131). -/
def Obligations.StopAndAbort : Prop :=
  (∀ (s : State) (tag : Byte), s.Ready →
     (s.seq.state = .idle ∨ s.seq.state = .ending →
       exec (.showStop tag) s = .next (s.replied 0x1B#8 tag .badState [])) ∧
     (s.seq.state ≠ .idle → s.seq.state ≠ .ending → ∃ t, exec (.showStop tag) s = .next t ∧
       t.seq.queue = [] ∧ t.seq.endReason = .stopRequest ∧ t.clock.position = s.clock.position ∧
       t.configuration = s.configuration ∧ t.flash = s.flash ∧
       (∀ c : Fin 48, (t.jets.channels.get c).live =
         { (s.jets.channels.get c).live with
           fade := { start := (s.jets.channels.get c).live.fade.valueAt s.clock.plantTime, target := 0,
                     t0 := s.clock.plantTime, duration := s.seq.run.endFade, held := false },
           abortClose := false }) ∧
       (∀ p : Fin 8, (s.water.pumps.get p).live.state ≠ .faulted → (s.water.pumps.get p).live.state ≠ .locked →
         (t.water.pumps.get p).live.target = 0 ∧ (t.water.pumps.get p).live.ramp = (s.water.pumps.get p).cfg.ramp) ∧
       (∀ x : Fin 96,
         let f := s.light.fixtures.get x
         let look := s.light.settings.idleColour
         t.light.fixtures.get x = { f with live := { f.live with
           fade := { start := f.live.fade.valueAt s.clock.plantTime,
                     target := if f.cfg.kind = .deck then ⟨look.r * 257, look.g * 257, look.b * 257, look.w * 257⟩
                       else ⟨0, 0, 0, 0⟩,
                     t0 := s.clock.plantTime, duration := s.seq.run.endFade, held := false },
           master := if f.cfg.kind = .deck then s.light.settings.idleMaster else f.live.master,
           mode := if f.cfg.kind = .deck then .steady else f.live.mode } }) ∧
       (0 < s.seq.run.endFade → t.seq.state = .ending ∧
         t.seq.endPosition = s.clock.position + s.seq.run.endFade ∧
         t.clock.armed = (if s.seq.state = .paused ∧ s.clock.source = .external ∧ s.clock.state = .locked then
           some s.clock.plantTime else s.clock.armed) ∧
         (∀ i : Fin 4, (t.audio.streams.get i).state = .idle ∨ (t.audio.streams.get i).state = .stopping) ∧
         (∀ i : Fin 4,
           let x := s.audio.streams.get i
           t.audio.streams.get i =
             if x.state = .idle then x
             else if x.state = .loading ∨ x.state = .paused then
               { x with state := .idle, ring := [], headPos := 0, boundary := false, silenceLeft := 0,
                        silencePasses := false }
             else
               { x with state := .stopping,
                        gain := { start := x.gain.valueAt s.clock.plantTime, target := 0, t0 := s.clock.plantTime,
                                  duration := 500, held := false } }) ∧
         (let w : State := { s with link := { s.link.choose with rx := .hunting } }
          t = { w.enterEnding .stopRequest with link := t.link })) ∧
       (s.seq.run.endFade = 0 → t.AtRest) ∧
       (let change : SeqState → SeqState → Notice := fun old new =>
          .run .state s.seq.running old new .stopRequest s.clock.position 0
        (0 < s.seq.run.endFade → t.link = s.link.answered [change s.seq.state .ending] 0x1B#8 tag .ok []) ∧
        (s.NoReactions → s.seq.run.endFade = 0 →
          t.link = s.link.answered [change s.seq.state .ending, change .ending .idle] 0x1B#8 tag .ok [])))) ∧
  (∀ (s : State) (tag : Byte), s.Ready →
     (s.seq.state = .idle → exec (.showAbort tag) s = .next (s.replied 0x1C#8 tag .badState [])) ∧
     (s.seq.state ≠ .idle → ∃ t, exec (.showAbort tag) s = .next t ∧ t.AtRest ∧
       t.seq.endReason = .abortRequest ∧ t.clock.position = s.clock.position ∧ t.configuration = s.configuration ∧
       t.flash = s.flash ∧
       (∀ c : Fin 48, (t.jets.channels.get c).live =
         { (s.jets.channels.get c).live with
           fade := { start := (s.jets.channels.get c).live.fade.valueAt s.clock.plantTime, target := 0,
                     t0 := s.clock.plantTime, duration := 0, held := false },
           abortClose := true }) ∧
       (∀ p : Fin 8, (s.water.pumps.get p).live.state ≠ .faulted → (s.water.pumps.get p).live.state ≠ .locked →
         (t.water.pumps.get p).live.target = 0 ∧ (t.water.pumps.get p).live.ramp = (s.water.pumps.get p).cfg.ramp) ∧
       (∀ x : Fin 96, (t.light.fixtures.get x).live.fade.target =
         (if (s.light.fixtures.get x).cfg.kind = .deck then
           Colour.widen s.light.settings.idleColour.r s.light.settings.idleColour.g s.light.settings.idleColour.b
             s.light.settings.idleColour.w
         else .black) ∧ (t.light.fixtures.get x).live.fade.duration = 0) ∧
       (∀ x : Fin 96,
         let f := s.light.fixtures.get x
         let look := s.light.settings.idleColour
         t.light.fixtures.get x = { f with live := { f.live with
           fade := { start := f.live.fade.valueAt s.clock.plantTime,
                     target := if f.cfg.kind = .deck then ⟨look.r * 257, look.g * 257, look.b * 257, look.w * 257⟩
                       else ⟨0, 0, 0, 0⟩,
                     t0 := s.clock.plantTime, duration := 0, held := false },
           master := if f.cfg.kind = .deck then s.light.settings.idleMaster else f.live.master,
           mode := if f.cfg.kind = .deck then .steady else f.live.mode } }) ∧
       (t.audio.streams.get 0).share = 16 ∧ (s.NoReactions → t.out = s.out ∧ t.seq.flags = s.seq.flags ∧
         t.link = s.link.answered [.run .state s.seq.running s.seq.state .idle .abortRequest s.clock.position 0]
           0x1C#8 tag .ok [])))

/-- FLAGS_SET and FLAGS_CLEAR (R61). -/
def Obligations.FlagRequests : Prop :=
  ∀ (s : State) (tag : Byte) (mask : Half), s.Ready →
    (∃ t, exec (.flagsSet tag mask) s = .next t ∧
      (∀ i : Fin 16, t.seq.flags.getLsbD i.val = (mask.getLsbD i.val || s.seq.flags.getLsbD i.val)) ∧
      t = ({ s with seq := { s.seq with flags := t.seq.flags } }).replied 0x1D#8 tag .ok (le 2 t.seq.flags.toNat)) ∧
    (∃ t, exec (.flagsClear tag mask) s = .next t ∧
      (∀ i : Fin 16, t.seq.flags.getLsbD i.val = (!mask.getLsbD i.val && s.seq.flags.getLsbD i.val)) ∧
      t = ({ s with seq := { s.seq with flags := t.seq.flags } }).replied 0x1E#8 tag .ok (le 2 t.seq.flags.toNat)) ∧
    exec (.flagsSet tag 0#16) s = .next (s.replied 0x1D#8 tag .ok (le 2 s.seq.flags.toNat)) ∧
    exec (.flagsClear tag 0#16) s = .next (s.replied 0x1E#8 tag .ok (le 2 s.seq.flags.toNat))

/-- What a cue's condition says at its issue, and what the issue counts: a false one raises the skip count and changes
nothing else; a true one raises the issued count, a true TAKE clears its flag first, and the action is delivered whatever
it is (R27, R58, R59, R65). What a delivery does at its owner, and that it does nothing else: JET, PUMP and LAMP give each
channel, pump that takes targets and fixture reached its new fade, target or look (R73, R91, R129); START loads its stream
on a defined track at the entry's nominal time and lets the arbiter choose (RefillReads), or reports NO_TRACK (R145); GAIN
and STOP act by the stream's state (R150, R151); FLAG clears and sets (R62); MARK is recorded and reported (R63). The fade's
start time at a START: log 17. -/
def Obligations.IssueTakesOrSkips : Prop :=
  (∀ (s : State) (e : QueueEntry),
    (s.conditionHolds e.action = true ↔ match e.action.cond with
      | .always => True
      | .flagSet => s.seq.flags.getLsbD e.action.arg = true
      | .flagClear => s.seq.flags.getLsbD e.action.arg = false
      | .take => s.seq.flags.getLsbD e.action.arg = true
      | .windBelow => s.wind.band < e.action.arg
      | .windAtLeast => e.action.arg ≤ s.wind.band
      | .zoneClear => ¬ ∃ r ∈ s.trip.reactions.cells, s.isActive r = true ∧ ∃ z, r.cfg.kind = .zoneHold z ∧
          z.val = e.action.arg
      | .zoneOccupied => ∃ r ∈ s.trip.reactions.cells, s.isActive r = true ∧ ∃ z, r.cfg.kind = .zoneHold z ∧
          z.val = e.action.arg) ∧
    (s.conditionHolds e.action = false →
      s.issueEntry e = { s with seq := { s.seq with skipCount := min 65535 (s.seq.skipCount + 1) } }) ∧
    (s.conditionHolds e.action = true →
      (s.issueEntry e).seq.issuedCount = min 65535 (s.seq.issuedCount + 1) ∧
      (s.issueEntry e).seq.skipCount = s.seq.skipCount ∧
      (e.action.cond = .take → ∀ n, e.action.body = .mark n →
        (s.issueEntry e).seq.lastMark = some n ∧ e.action.arg < 16 ∧
        ∀ i : Fin 16, (s.issueEntry e).seq.flags.getLsbD i.val =
          (decide (i.val ≠ e.action.arg) && s.seq.flags.getLsbD i.val)) ∧
      ∃ flags : Half, (e.action.cond ≠ .take → flags = s.seq.flags) ∧
        (e.action.cond = .take → ∀ i : Fin 16, flags.getLsbD i.val =
          (decide (i.val ≠ e.action.arg) && s.seq.flags.getLsbD i.val)) ∧
        let d := ({ s with seq := { s.seq with flags := flags } } : State).deliver e.action e.nominal
        s.issueEntry e = { d with seq := { d.seq with issuedCount := min 65535 (d.seq.issuedCount + 1) } })) ∧
  ∀ (s : State) (c : Cue) (nominal : Int),
    let t := s.deliver c nominal
    let now := s.clock.plantTime
    (∀ height fade level, c.body = .jet height fade level →
      t = { s with jets := { s.jets with channels := t.jets.channels } } ∧
      ∀ k : Fin 48,
        let x := s.jets.channels.get k
        let reached := c.group = false ∧ c.target = k.val ∨
          c.group = true ∧ ∃ g : Fin 16, c.target = g.val ∧ (s.jets.groups.get g).members.getLsbD k.val = true
        (¬ reached → t.jets.channels.get k = x) ∧
        (reached → t.jets.channels.get k = { x with live := { x.live with
          fade := { start := x.live.fade.valueAt now, target := min height 4095, t0 := now, duration := fade,
                    held := false },
          override := match level with
            | .keep => x.live.override
            | .default => none
            | .level n => some n
          abortClose := false } })) ∧
    (∀ speed ramp, c.body = .pump speed ramp →
      t = { s with water := { s.water with pumps := t.water.pumps } } ∧
      ∀ p : Fin 8,
        let x := s.water.pumps.get p
        let reached := (c.group = false ∧ c.target = p.val ∨
          c.group = true ∧ c.target = (if x.cfg.manifold = .a then 0 else 1)) ∧
          x.live.state ≠ .faulted ∧ x.live.state ≠ .locked
        (¬ reached → t.water.pumps.get p = x) ∧
        (reached → t.water.pumps.get p = { x with live := { x.live with
          target := if speed = 0 then 0 else max (min speed 1000) x.cfg.minSpeed,
          ramp := if ramp = 0 then x.cfg.ramp else ramp } })) ∧
    (∀ r g b w fade master mode, c.body = .lamp r g b w fade master mode →
      t = { s with light := { s.light with fixtures := t.light.fixtures } } ∧
      ∀ k : Fin 96,
        let x := s.light.fixtures.get k
        let reached := c.group = false ∧ c.target = k.val ∨
          c.group = true ∧ ∃ g : Fin 16, c.target = g.val ∧ (s.light.groups.get g).members.getLsbD k.val = true
        (¬ reached → t.light.fixtures.get k = x) ∧
        (reached → t.light.fixtures.get k = { x with live := { x.live with
          fade := { start := x.live.fade.valueAt now, target := ⟨r * 257, g * 257, b * 257, w * 257⟩, t0 := now,
                    duration := fade, held := false },
          master := master, mode := mode } })) ∧
    (∀ i : Fin 4, c.target = i.val →
      let x := s.audio.streams.get i
      let discarded := s.audio.read.map (fun r => if r.stream = i then { r with discarded := true } else r)
      let idled : State := { s with audio := { s.audio with
        streams := s.audio.streams.set i { x with
          state := .idle, ring := [], headPos := 0, boundary := false, silenceLeft := 0, silencePasses := false },
        read := discarded } }
      (∀ track gain, c.body = .audioStart track gain →
        ((∀ k : Fin 64, track = k.val → s.audio.tracks.get k = none) →
          let notice : Notice := .audio .noTrack i.val track x.framesOutput x.underruns 0 s.clock.position now
          t = { s with link := s.link.tell notice }) ∧
        (∀ (k : Fin 64) (d : Track), track = k.val → s.audio.tracks.get k = some d →
          let loaded : Stream := { x with
            state := .loading, track := track, format := d.format, startPosition := nominal, nextAddress := d.start,
            leftToRead := d.frames, leftToPlay := d.frames, framesOutput := 0, silenceLeft := 0,
            silencePasses := false, ring := [], headPos := 0, boundary := false,
            gain := { x.gain with start := min gain 4096, target := min gain 4096, duration := 0 } }
          let u := ({ s with audio := { s.audio with
            streams := s.audio.streams.set i loaded, read := discarded } } : State).refill
          t = if nominal ≤ s.clock.position then
              { u with audio := { u.audio with
                  streams := u.audio.streams.modify i (fun y => { y with state := .playing, boundary := true }) } }
            else u)) ∧
      (∀ fade, c.body = .audioStop fade →
        (x.state = .idle → t = s) ∧
        (x.state = .loading ∨ x.state = .paused ∨ (x.state = .playing ∨ x.state = .stopping) ∧ fade = 0 → t = idled) ∧
        ((x.state = .playing ∨ x.state = .stopping) → 0 < fade → t = { s with audio := { s.audio with
          streams := s.audio.streams.set i { x with
            state := .stopping,
            gain := { start := x.gain.valueAt now, target := 0, t0 := now, duration := fade, held := false } } } })) ∧
      (∀ gain fade, c.body = .audioGain gain fade →
        (x.state = .idle ∨ x.state = .stopping ∨ x.state = .paused ∧ x.pausedFrom = .stopping → t = s) ∧
        (x.state = .loading ∨ x.state = .playing ∨ x.state = .paused ∧ x.pausedFrom = .playing →
          t = { s with audio := { s.audio with
            streams := s.audio.streams.set i { x with
              gain := { start := x.gain.valueAt now, target := min gain 4096, t0 := now, duration := fade,
                        held := false } } } }))) ∧
    (∀ clear set, c.body = .flag clear set →
      t = { s with seq := { s.seq with flags := t.seq.flags } } ∧
      ∀ i : Fin 16, t.seq.flags.getLsbD i.val =
        (set.getLsbD i.val || (!clear.getLsbD i.val && s.seq.flags.getLsbD i.val))) ∧
    (∀ n, c.body = .mark n →
      let notice : Notice := .run .mark s.seq.running s.seq.state s.seq.state s.seq.endReason s.clock.position n
      t = { s with seq := { s.seq with lastMark := some n }, link := s.link.tell notice })

/-- The reading of a cue of any kind but LOOP: its entry's issue time is its nominal time less its lead, or show
position where that is later, which counts and reports a late cue; it stands in the queue after the entries issued no
later (R51, R52, R55). A cue's lead is its target's or its group's, the largest of a manifold's pumps, 50 for AUDIO and else 0
(R28). The loop step at a LOOP cue: a stack top of the same cue goes on, else a new entry is pushed;
with no jumps left the entry is popped and the cursor passes on; else the reader jumps back, the offset grows by the
time jumped over, and the entry keeps one jump fewer, or all of them when its count is 255 (R53). When a cue is read: in
PREROLL, PLAYING and PAUSED, with the cursor below the cue count, the queue below 256 entries and the nominal time at most
4000 above show position (R51). When the head is removed and issued: in PREROLL and PLAYING, at an issue time reached (R57).
The event takes them in turn, a due head first, and on a sealed show comes to rest with no head due and no cue to take;
then the natural end is judged (R47; the order and the bound on the turns: log 12, log 31). -/
def Obligations.ReadingACue : Prop :=
  (∀ s : State,
     (∀ c : Cue, s.nextCue = some c ↔
       (s.seq.state = .preroll ∨ s.seq.state = .playing ∨ s.seq.state = .paused) ∧ s.seq.cursor < s.seq.run.count ∧
         s.seq.queue.length < 256 ∧ s.store.cues[s.seq.run.first + s.seq.cursor]? = some c ∧
         (c.time : Int) + s.seq.loopOffset ≤ s.clock.position + 4000) ∧
     (s.headDue = true ↔ (s.seq.state = .preroll ∨ s.seq.state = .playing) ∧
       ∃ e es, s.seq.queue = e :: es ∧ e.issueTime ≤ s.clock.position) ∧
     (∀ e es, s.seq.queue = e :: es →
       s.issueHead = ({ s with seq := { s.seq with queue := es } } : State).issueEntry e) ∧
     (∀ turns, readAndIssue (turns + 1) s =
       if s.headDue = true then readAndIssue turns s.issueHead
       else match s.nextCue with
         | some c => readAndIssue turns (s.readCue c)
         | none => s) ∧
     (∀ effects, sealFault ((s.store.cues.drop s.seq.run.first).take s.seq.run.count) effects = none →
       s.seq.run.count ≤ 4096 → s.seq.queue.length ≤ 256 →
       (readAndIssue s.turns s).headDue = false ∧ (readAndIssue s.turns s).nextCue = none) ∧
     (let r := readAndIssue s.turns s
      s.settle =
        if r.seq.state = .playing ∧ r.seq.cursor = r.seq.run.count ∧ r.seq.queue = [] ∧
            (r.audio.streams.get 0).state = .idle then
          r.beginEnding .natural
        else r)) ∧
  (∀ (s : State) (c : Cue),
     (∀ h f l, c.body = .jet h f l →
       (∀ k : Fin 48, c.group = false → c.target = k.val → s.lead c = (s.jets.channels.get k).cfg.lead) ∧
       (∀ g : Fin 16, c.group = true → c.target = g.val → s.lead c = (s.jets.groups.get g).lead)) ∧
     (∀ v r, c.body = .pump v r →
       (∀ p : Fin 8, c.group = false → c.target = p.val → s.lead c = (s.water.pumps.get p).cfg.lead) ∧
       (∀ m : Manifold, c.group = true → c.target = (if m = .a then 0 else 1) →
         let on : Fin 8 → Prop := fun p => (s.water.pumps.get p).cfg.manifold = m
         (∀ p, on p → (s.water.pumps.get p).cfg.lead ≤ s.lead c) ∧
         ((∃ p, on p) → ∃ p, on p ∧ s.lead c = (s.water.pumps.get p).cfg.lead) ∧
         ((∀ p, ¬ on p) → s.lead c = 0))) ∧
     (∀ r g b w f m d, c.body = .lamp r g b w f m d →
       (∀ x : Fin 96, c.group = false → c.target = x.val → s.lead c = (s.light.fixtures.get x).cfg.lead) ∧
       (∀ y : Fin 16, c.group = true → c.target = y.val → s.lead c = (s.light.groups.get y).lead)) ∧
     ((∃ n g, c.body = .audioStart n g) ∨ (∃ f, c.body = .audioStop f) ∨ (∃ g f, c.body = .audioGain g f) →
       s.lead c = 50) ∧
     ((∃ x y, c.body = .flag x y) ∨ (∃ n, c.body = .mark n) → s.lead c = 0)) ∧
  (∀ (s : State) (c : Cue), (∀ target count, c.body ≠ .loop target count) →
     let due : Int := c.time + s.seq.loopOffset - s.lead c
     let late : Bool := decide (due < s.clock.position)
     let entry : QueueEntry := { cue := s.seq.cursor, nominal := c.time + s.seq.loopOffset, action := c,
                                 issueTime := max due s.clock.position, late := late }
     s.readCue c =
       { s with
         seq := { s.seq with
           queue := s.seq.queue.takeWhile (fun q => decide (q.issueTime ≤ entry.issueTime)) ++
             entry :: s.seq.queue.dropWhile (fun q => decide (q.issueTime ≤ entry.issueTime)),
           cursor := s.seq.cursor + 1,
           lateCount := if late then min 65535 (s.seq.lateCount + 1) else s.seq.lateCount },
         link := if late then s.link.tell (.late s.seq.cursor entry.nominal s.clock.position (s.clock.position - due))
           else s.link }) ∧
  (∀ (s : State) (c u : Cue) (target count : Nat), c.body = .loop target count → s.cueAt target = some u →
     (∀ rest remaining, s.seq.loopStack = ⟨s.seq.cursor, remaining⟩ :: rest →
       s.readCue c = { s with seq :=
         if remaining = 0 then { s.seq with loopStack := rest, cursor := s.seq.cursor + 1 }
         else { s.seq with
           loopStack := ⟨s.seq.cursor, if remaining = 255 then 255 else remaining - 1⟩ :: rest,
           loopOffset := s.seq.loopOffset + ((c.time : Int) - u.time), cursor := target } }) ∧
     ((∀ e rest, s.seq.loopStack = e :: rest → e.cue ≠ s.seq.cursor) → count = 0 →
       s.readCue c = { s with seq := { s.seq with cursor := s.seq.cursor + 1 } }) ∧
     ((∀ e rest, s.seq.loopStack = e :: rest → e.cue ≠ s.seq.cursor) → 1 ≤ count →
       s.readCue c = { s with seq := { s.seq with
         loopStack := ⟨s.seq.cursor, if count = 255 then 255 else count - 1⟩ :: s.seq.loopStack,
         loopOffset := s.seq.loopOffset + ((c.time : Int) - u.time), cursor := target } }))

/-! ### Jet channels -/

/-- CHANNEL_CONFIG and JET_GROUP_CONFIG: NOT_SAFE in LIVE, BAD_ARGUMENT for a field out of range, else the record's
configuration is replaced and nothing else changes (R67, R68, R69). -/
def Obligations.JetConfigRequests : Prop :=
  (∀ a : ChannelArgs, channelCfgOf a =
    if h : a.zone.toNat < 4 ∧ a.manifold.toNat ≤ 1 ∧ a.type.toNat ≤ 1 ∧ a.level.toNat ≤ 7 ∧ a.kn.toNat ≤ 4095 ∧
        curveOk (a.curve.map BitVec.toNat) = true ∧ a.switchedFlow.toNat ≤ 16383 ∧ a.lead.toNat ≤ 4000 ∧
        1 ≤ a.normalSlew.toNat ∧ a.normalSlew.toNat ≤ 1000 ∧ 1 ≤ a.tripSlew.toNat ∧ a.tripSlew.toNat ≤ 1000 then
      some { manifold := if a.manifold = 0#8 then .a else .b, zone := ⟨a.zone.toNat, h.1⟩,
             type := if a.type = 0#8 then .proportional else .switched, level := a.level.toNat, kn := a.kn.toNat,
             curve := a.curve.map BitVec.toNat, switchedFlow := a.switchedFlow.toNat, lead := a.lead.toNat,
             normalSlew := a.normalSlew.toNat, tripSlew := a.tripSlew.toNat }
    else none) ∧
  (∀ curve : List Nat, curve ≠ [] → (curveOk curve = true ↔
    curve.getD 0 1 = 0 ∧ curve.Pairwise (· ≤ ·) ∧ ∀ f ∈ curve, f ≤ 16383)) ∧
  (∀ (s : State) (tag : Byte) (a : ChannelArgs), s.Ready → a.wf = true →
    (s.out.mode = .live → exec (.channelConfig tag a) s = .next (s.replied 0x20#8 tag .notSafe [])) ∧
    (s.out.mode = .safe → 48 ≤ a.channel.toNat ∨ channelCfgOf a = none →
      exec (.channelConfig tag a) s = .next (s.replied 0x20#8 tag .badArgument [])) ∧
    (∀ (c : Fin 48) (cfg : ChannelCfg), s.out.mode = .safe → a.channel.toNat = c.val → channelCfgOf a = some cfg →
      exec (.channelConfig tag a) s = .next
        (({ s with jets := { s.jets with
            channels := s.jets.channels.modify c (fun x => { x with cfg := cfg }) } }).replied 0x20#8 tag .ok []))) ∧
  (∀ (s : State) (tag : Byte) (a : JetGroupArgs), s.Ready →
    (s.out.mode = .live → exec (.jetGroupConfig tag a) s = .next (s.replied 0x21#8 tag .notSafe [])) ∧
    (s.out.mode = .safe → 16 ≤ a.group.toNat ∨ 4000 < a.lead.toNat →
      exec (.jetGroupConfig tag a) s = .next (s.replied 0x21#8 tag .badArgument [])) ∧
    (∀ g : Fin 16, s.out.mode = .safe → a.group.toNat = g.val → a.lead.toNat ≤ 4000 →
      exec (.jetGroupConfig tag a) s = .next
        (({ s with jets := { s.jets with
            groups := s.jets.groups.set g { members := a.members, lead := a.lead.toNat } } }).replied
          0x21#8 tag .ok [])))

/-- A fade gives its target when its duration is 0 and from its end on for good, lies between its two heights, and in
between stands at the start height plus the truncated share of the way (R1, R72). Effective heights, demands and curve
openings are what the manual's arithmetic says, and stay within their ranges (R77, R78, R81, R83). -/
def Obligations.FadesHeightsDemandsOpenings : Prop :=
  (∀ (f : Fade) (now later : PlantTime),
     (f.duration = 0 → f.valueAt now = f.target) ∧
     min f.start f.target ≤ f.valueAt now ∧ f.valueAt now ≤ max f.start f.target ∧
     (f.held = false → elapsed f.t0 now < f.duration →
       (f.valueAt now : Int) =
         f.start + (((f.target : Int) - f.start) * elapsed f.t0 now).tdiv f.duration) ∧
     (f.duration ≤ elapsed f.t0 now → f.valueAt now = f.target ∧ (f.tick now).valueAt later = f.target) ∧
     ((f.restart now f.target 0).valueAt later = f.target) ∧
     (∀ (h d : Nat), 0 < d → (f.restart now h d).valueAt now = f.valueAt now)) ∧
  ((∀ h w : Nat, effectiveHeight h w = (h * w + 128) / 256 ∧ (w ≤ 256 → effectiveHeight h w ≤ h)) ∧
   (∀ x : Nat, x < 2 ^ 32 → intSqrt x * intSqrt x ≤ x ∧ x < (intSqrt x + 1) * (intSqrt x + 1)) ∧
   (∀ kn he : Nat, proportionalDemand kn he = min 16383 ((kn * intSqrt (he * 256) + 128) / 256)) ∧
   (∀ (c : ChannelCfg) (he : Nat), (c.type = .proportional → c.demand he = proportionalDemand c.kn he) ∧
     (c.type = .switched → c.demand he = if 1 ≤ he then c.switchedFlow else 0)) ∧
   (∀ (curve : List Nat) (g : Nat), curve.length = 9 → curve.getD 0 1 = 0 → curve.Pairwise (· ≤ ·) →
     curveOpening curve g ≤ 1000 ∧ (g = 0 → curveOpening curve g = 0) ∧
     (0 < g → curve.getD 8 0 ≤ g → curveOpening curve g = 1000) ∧
     (∀ i : Fin 8, g < curve.getD 8 0 → curve.getD i.val 0 < g → g ≤ curve.getD (i.val + 1) 0 →
       curveOpening curve g = 125 * i.val +
         (g - curve.getD i.val 0) * 125 / (curve.getD (i.val + 1) 0 - curve.getD i.val 0))))

/-- The opening of a PROPORTIONAL channel moves toward its curve opening by at most the slew in force (R82). -/
def Obligations.OpeningSlews : Prop :=
  ∀ (c : Channel) (grant : Nat) (status : GrantStatus), c.cfg.type = .proportional →
    let o := c.live.opening
    let t := c.take grant status
    let co := curveOpening c.cfg.curve grant
    let s := if c.live.hold.zone ∨ c.live.hold.safe ∨ c.live.hold.abort then c.cfg.tripSlew else c.cfg.normalSlew
    t.live.curveOpening = co ∧
    (o < co → t.live.opening = min co (o + s)) ∧ (co < o → t.live.opening = max co (o - s)) ∧
    (co = o → t.live.opening = o) ∧
    (c.cfg.InRange → o ≤ 1000 → t.live.opening ≤ 1000) ∧
    (o ≤ co → o ≤ t.live.opening ∧ t.live.opening ≤ co ∧ t.live.opening - o ≤ s) ∧
    (co ≤ o → co ≤ t.live.opening ∧ t.live.opening ≤ o ∧ o - t.live.opening ≤ s)

/-- At every manifold update that is due, the grants of the manifold's channels sum to no more than the usable flow;
each grant is at most the channel's demand, and 0 while the channel is HELD or EXCLUDED (R79, R81, R108, R109). A pump
gives 0 in FAULTED and LOCKED and else the whole litres of its rated flow times its actual speed over 1000 (R104); the
available flow is the sum over the manifold's pumps (R108), and the admit level the lowest that an active ADMIT_LIMIT on
the manifold names, or 7 (R107). -/
def Obligations.GrantsWithinUsableFlow : Prop :=
  (∀ p : Pump, p.flow = if p.live.state = .faulted ∨ p.live.state = .locked then 0
    else p.cfg.ratedFlow * p.live.actual / 1000) ∧
  (∀ (s : State) (m : Manifold),
    s.availableFlow m = ((List.finRange 8).map (fun p =>
      let x := s.water.pumps.get p
      if x.cfg.manifold = m ∧ x.live.state ≠ .faulted ∧ x.live.state ≠ .locked then
        x.cfg.ratedFlow * x.live.actual / 1000
      else 0)).sum ∧
    s.admitLevel m ≤ 7 ∧
    (∀ r ∈ s.trip.reactions.cells, s.isActive r = true → ∀ l, r.cfg.kind = .admitLimit m l → s.admitLevel m ≤ l) ∧
    (s.admitLevel m = 7 ∨ ∃ r ∈ s.trip.reactions.cells, s.isActive r = true ∧
      r.cfg.kind = .admitLimit m (s.admitLevel m))) ∧
  ∀ (s : State) (m : Manifold), s.phase = .running →
    (s.clock.plantTime - (s.water.manifolds.get (manifoldNum m)).nextUpdate).toNat < 2 ^ 31 →
    ∃ t, exec (.manifoldUpdate m) s = .next t ∧
      t.grantedTo m ≤ s.availableFlow m - (s.water.manifolds.get (manifoldNum m)).reserve ∧
      (t.water.manifolds.get (manifoldNum m)).summary.granted = t.grantedTo m ∧
      (∀ c : Fin 48, (t.jets.channels.get c).cfg.manifold = m →
        (t.jets.channels.get c).live.grant ≤ (t.jets.channels.get c).live.demand ∧
        ((t.jets.channels.get c).live.hold.any = true → (t.jets.channels.get c).live.grant = 0 ∧
          (t.jets.channels.get c).live.status = .held) ∧
        ((t.jets.channels.get c).live.hold.any = false → (t.jets.channels.get c).live.demand ≠ 0 →
          s.admitLevel m ≤ (t.jets.channels.get c).level →
          (t.jets.channels.get c).live.grant = 0 ∧ (t.jets.channels.get c).live.status = .excluded))

/-- The levels of an allocation: a level served in full gives every offer its demand; at the scaled level switched
offers get nothing and proportional ones all their demand, or the floor of their share of what remains; the levels
after it get nothing (R109). An offer is admitted when it is not HELD, its demand is not 0 and its level lies below the
admit level; one that is not gets 0 with status HELD, IDLE or EXCLUDED, judged in that order (R109). What
MANIFOLD_UPDATE gives its channels is this (ManifoldUpdateTakesEffect). -/
def Obligations.LevelsAreServedInOrder : Prop :=
  (∀ (o : Offer) (admitBelow : Nat) (os : List Offer) (l : Nat) (plans : List LevelPlan),
    (o.admitted admitBelow = true ↔ o.held = false ∧ o.demand ≠ 0 ∧ o.level < admitBelow) ∧
    (o ∈ atLevel admitBelow os l ↔ o ∈ os ∧ o.admitted admitBelow = true ∧ o.level = l) ∧
    (o.held = true → o.grant admitBelow plans = (0, .held)) ∧
    (o.held = false → o.demand = 0 → o.grant admitBelow plans = (0, .idle)) ∧
    (o.held = false → o.demand ≠ 0 → admitBelow ≤ o.level → o.grant admitBelow plans = (0, .excluded))) ∧
  ∀ (admitBelow : Nat) (os : List Offer) (usable : Nat) (o : Offer),
    o ∈ os → o.admitted admitBelow = true → o.level < 7 →
    let before := ((List.range o.level).map (fun l => demandSum (atLevel admitBelow os l))).sum
    let here := demandSum (atLevel admitBelow os o.level)
    let share := demandSum (proportionals (atLevel admitBelow os o.level))
    let r := usable - before
    let g := o.grant admitBelow (planLevels admitBelow os servedLevels usable)
    (before + here ≤ usable → g = (o.demand, .full)) ∧
    (before ≤ usable → usable < before + here → o.type = .switched → g = (0, .starved)) ∧
    (before ≤ usable → usable < before + here → o.type = .proportional → share ≤ r → g = (o.demand, .full)) ∧
    (before ≤ usable → usable < before + here → o.type = .proportional → r < share →
      g = (o.demand * r / share, .short)) ∧
    (usable < before → g = (0, .starved))

/-- A manifold update that is due writes the records of its own channels and its own manifold and nothing else (R76,
R77, R79, R106, R110): each channel is judged and then takes its grant, as OpeningSlews has it for a PROPORTIONAL one
(R82); a SWITCHED channel stands open at 1000 exactly when its grant is the whole of a demand that is not 0, and closed
otherwise, with no slew (R83). The grant and its status are the allocation (LevelsAreServedInOrder) of the usable
flow among the offers of the manifold's channels as they have just been judged (R109); a demand of 0 that is not held has
status IDLE; the summary gives each level's demand and outcome and the scaled level (R110). A zone is occupied while a
ZONE_HOLD of it is active (R173). An update that is not due does nothing (log 1). -/
def Obligations.ManifoldUpdateTakesEffect : Prop :=
  (∀ (s : State) (z : Nat), s.zoneOccupied z = true ↔
    ∃ r ∈ s.trip.reactions.cells, s.isActive r = true ∧ ∃ y, r.cfg.kind = .zoneHold y ∧ y.val = z) ∧
  ∀ (s : State) (m : Manifold), s.phase = .running →
    (2 ^ 31 ≤ (s.clock.plantTime - (s.water.manifolds.get (manifoldNum m)).nextUpdate).toNat →
      exec (.manifoldUpdate m) s = .next (s.passed [])) ∧
    ((s.clock.plantTime - (s.water.manifolds.get (manifoldNum m)).nextUpdate).toNat < 2 ^ 31 →
      ∃ t, exec (.manifoldUpdate m) s = .next t ∧
        t = { s with jets := { s.jets with channels := t.jets.channels },
                     water := { s.water with manifolds := t.water.manifolds }, link := s.link.choose } ∧
        (∀ k : Fin 2, k ≠ manifoldNum m → t.water.manifolds.get k = s.water.manifolds.get k) ∧
        (let r := t.water.manifolds.get (manifoldNum m)
         r.reserve = (s.water.manifolds.get (manifoldNum m)).reserve ∧ r.lastUpdate = s.clock.plantTime ∧
         r.nextUpdate = (s.water.manifolds.get (manifoldNum m)).nextUpdate + 10 ∧
         r.summary.admitLevel = s.admitLevel m ∧ r.summary.available = s.availableFlow m ∧
         r.summary.usable = s.availableFlow m - r.reserve ∧
         r.summary.granted + r.summary.unallocated = r.summary.usable) ∧
        (let r := t.water.manifolds.get (manifoldNum m)
         let a := s.admitLevel m
         let u := s.availableFlow m - (s.water.manifolds.get (manifoldNum m)).reserve
         let offer : Fin 48 → Offer := fun c =>
           let y := t.jets.channels.get c
           { demand := y.live.demand, level := y.live.override.getD y.cfg.level, type := y.cfg.type,
             held := y.live.hold.zone || y.live.hold.safe || y.live.hold.abort }
         let mine := (List.finRange 48).filter (fun c => decide ((s.jets.channels.get c).cfg.manifold = m))
         let offers := mine.map offer
         let before : Nat → Nat := fun l => ((List.range l).map (fun k => demandSum (atLevel a offers k))).sum
         (∀ c ∈ mine, ((t.jets.channels.get c).live.grant, (t.jets.channels.get c).live.status) =
           (offer c).grant a (planLevels a offers [0, 1, 2, 3, 4, 5, 6] u)) ∧
         (∀ c ∈ mine, (offer c).held = false → (offer c).demand = 0 →
           (t.jets.channels.get c).live.grant = 0 ∧ (t.jets.channels.get c).live.status = .idle) ∧
         (∀ l : Fin 7,
           let here := demandSum (atLevel a offers l.val)
           let outcome : LevelOutcome :=
             if atLevel a offers l.val = [] then .empty
             else if before l.val + here ≤ u then .full
             else if before l.val ≤ u then .scaled
             else .starved
           r.summary.levels[l.val]? = some { demand := here, outcome := outcome } ∧
           (r.summary.scaled = some l.val ↔ before l.val ≤ u ∧ u < before l.val + here)) ∧
         (r.summary.scaled = none ↔ before 7 ≤ u)) ∧
        ∀ c : Fin 48,
          ((s.jets.channels.get c).cfg.manifold ≠ m → t.jets.channels.get c = s.jets.channels.get c) ∧
          ((s.jets.channels.get c).cfg.manifold = m →
            let x := s.jets.channels.get c
            let y := t.jets.channels.get c
            y.cfg = x.cfg ∧ y.live.fade = x.live.fade ∧ y.live.override = x.live.override ∧
            y.live.requested = x.live.fade.valueAt s.clock.plantTime ∧
            y.live.trimUsed = (s.wind.zones.get x.cfg.zone).applied ∧
            y.live.effective = effectiveHeight y.live.requested y.live.trimUsed ∧
            y.live.demand = x.cfg.demand y.live.effective ∧
            y = (x.judge s.clock.plantTime (s.wind.zones.get x.cfg.zone).applied (s.zoneOccupied x.cfg.zone.val)
              (decide (s.out.mode = .safe))).take y.live.grant y.live.status ∧
            (x.cfg.type = .switched → y.live.opening = y.live.curveOpening ∧
              y.live.curveOpening = if y.live.grant = y.live.demand ∧ 0 < y.live.demand then 1000 else 0) ∧
            y.live.hold = { zone := s.zoneOccupied x.cfg.zone.val, safe := decide (s.out.mode = .safe),
                            abort := x.live.abortClose } ∧
            y.live.abortClose = (x.live.abortClose && decide (y.live.opening ≠ 0))))

/-! ### Pumps -/

/-- PUMP_CONFIG, PUMP_SET and PUMP_CLEAR: their checks in order, and their effects; with no reaction in use nothing
else changes (R88, R89, R91, R92, R100). A pump rewritten with address 0 receives no reply, so its open poll exchange
ends (R88); with another address the exchange stays open, which is the model's choice (log 38). That a group byte of 2 or
more is a bad argument is the model's choice (log 28). -/
def Obligations.PumpRequests : Prop :=
  (∀ a : PumpArgs, pumpCfgOf a =
    if a.manifold.toNat ≤ 1 ∧ a.address.toNat ≤ 247 ∧ a.ratedFlow.toNat ≤ 16383 ∧ a.minSpeed.toNat ≤ 1000 ∧
        a.lead.toNat ≤ 4000 ∧ 1 ≤ a.startTimeout.toNat ∧ a.startTimeout.toNat ≤ 60 then
      some { manifold := if a.manifold = 0#8 then .a else .b, address := a.address.toNat,
             ratedFlow := a.ratedFlow.toNat, minSpeed := a.minSpeed.toNat, ramp := a.ramp.toNat,
             lead := a.lead.toNat, startTimeout := a.startTimeout.toNat }
    else none) ∧
  (∀ (s : State) (tag : Byte) (a : PumpArgs), s.Ready →
    (s.out.mode = .live → exec (.pumpConfig tag a) s = .next (s.replied 0x28#8 tag .notSafe [])) ∧
    (s.out.mode = .safe → 8 ≤ a.pump.toNat ∨ pumpCfgOf a = none →
      exec (.pumpConfig tag a) s = .next (s.replied 0x28#8 tag .badArgument [])) ∧
    (∀ (p : Fin 8) (cfg : PumpCfg), s.out.mode = .safe → a.pump.toNat = p.val → pumpCfgOf a = some cfg →
      ((∃ q : Fin 8, q ≠ p ∧ cfg.address ≠ 0 ∧ (s.water.pumps.get q).cfg.address = cfg.address) →
        exec (.pumpConfig tag a) s = .next (s.replied 0x28#8 tag .badArgument [])) ∧
      ((∀ q : Fin 8, q ≠ p → cfg.address = 0 ∨ (s.water.pumps.get q).cfg.address ≠ cfg.address) →
        let poll : PollState := { s.water.poll with
          awaiting := if cfg.address = 0 ∧ s.water.poll.awaiting = some p then none else s.water.poll.awaiting }
        (∃ t, exec (.pumpConfig tag a) s = .next t ∧ (t.water.pumps.get p) = { cfg := cfg, live := .fresh cfg } ∧
          t.water.poll = poll ∧ t.out.mode = .safe ∧ t.flash = s.flash) ∧
        (s.NoReactions → exec (.pumpConfig tag a) s = .next
          (({ s with water := { s.water with
              pumps := s.water.pumps.set p { cfg := cfg, live := .fresh cfg }, poll := poll } }).replied
            0x28#8 tag .ok []))))) ∧
  (∀ (s : State) (tag : Byte) (a : PumpSetArgs), s.Ready →
    (s.seq.state ≠ .idle → exec (.pumpSet tag a) s = .next (s.replied 0x29#8 tag .showRunning [])) ∧
    (s.seq.state = .idle → ¬ (a.group = 0#8 ∧ a.index.toNat < 8 ∨ a.group = 1#8 ∧ a.index.toNat < 2) →
      exec (.pumpSet tag a) s = .next (s.replied 0x29#8 tag .badArgument [])) ∧
    (s.seq.state = .idle → (a.group = 0#8 ∧ a.index.toNat < 8 ∨ a.group = 1#8 ∧ a.index.toNat < 2) →
      s.out.mode = .safe → exec (.pumpSet tag a) s = .next (s.replied 0x29#8 tag .plantSafe [])) ∧
    (∀ reach : Fin 8 → Bool, s.seq.state = .idle → s.out.mode = .live →
      (a.group = 0#8 ∧ a.index.toNat < 8 ∧ (∀ p, reach p = (a.index.toNat == p.val)) ∨
        ∃ m : Manifold, a.group = 1#8 ∧ a.index.toNat = (manifoldNum m).val ∧
          ∀ p, reach p = decide ((s.water.pumps.get p).cfg.manifold = m)) →
      let taken : Fin 8 → Bool := fun p => reach p && decide ((s.water.pumps.get p).live.state ≠ .faulted) &&
        decide ((s.water.pumps.get p).live.state ≠ .locked)
      ∃ t, exec (.pumpSet tag a) s = .next t ∧
        t = ({ s with water := { s.water with pumps := t.water.pumps } }).replied 0x29#8 tag .ok
          (le 2 ((List.finRange 8).filter taken).length) ∧
        ∀ p : Fin 8, t.water.pumps.get p =
          if taken p then
            { s.water.pumps.get p with live := { (s.water.pumps.get p).live with
                target := if a.speed = 0#16 then 0
                  else max (min a.speed.toNat 1000) (s.water.pumps.get p).cfg.minSpeed,
                ramp := if a.ramp = 0#16 then (s.water.pumps.get p).cfg.ramp else a.ramp.toNat } }
          else s.water.pumps.get p)) ∧
  (∀ (s : State) (tag n : Byte), s.Ready →
    (8 ≤ n.toNat → exec (.pumpClear tag n) s = .next (s.replied 0x2A#8 tag .badArgument [])) ∧
    (∀ p : Fin 8, n.toNat = p.val →
      let l := (s.water.pumps.get p).live
      (l.state ≠ .faulted → exec (.pumpClear tag n) s = .next (s.replied 0x2A#8 tag .badState [])) ∧
      (l.state = .faulted → l.exchange ≠ .good ∨ l.ready = false →
        exec (.pumpClear tag n) s = .next (s.replied 0x2A#8 tag .pumpFault [])) ∧
      (l.state = .faulted → l.exchange = .good → l.ready = true →
        (∃ t, exec (.pumpClear tag n) s = .next t ∧ (t.water.pumps.get p).live.state = .stopped ∧
          (t.water.pumps.get p).live.fault = none ∧ (t.water.pumps.get p).live.misses = 0 ∧
          (t.water.pumps.get p).live.target = 0 ∧ (t.water.pumps.get p).live.commanded = 0) ∧
        (s.NoReactions → exec (.pumpClear tag n) s = .next
          (({ s with water := { s.water with
              pumps := s.water.pumps.set p { cfg := (s.water.pumps.get p).cfg, live := { l with
                state := .stopped, fault := none, misses := 0, target := 0, commanded := 0 } } } }).replied
            0x2A#8 tag .ok [])))))

/-- The ramp of a poll slot (R95), which a FAULTED or LOCKED pump skips. -/
def Obligations.RampStepsTowardTheTarget : Prop :=
  (∀ p : Pump, p.live.state ≠ .faulted → p.live.state ≠ .locked →
    let c := p.live.commanded
    let t := p.live.target
    let step := max 1 (20000 / p.live.ramp)
    p.ramp = { p with live := { p.live with commanded := p.ramp.live.commanded } } ∧
    (p.live.ramp = 0 → p.ramp.live.commanded = t) ∧
    (0 < p.live.ramp → (c < t → p.ramp.live.commanded = min t (c + step)) ∧
      (t < c → p.ramp.live.commanded = max t (c - step)) ∧ (c = t → p.ramp.live.commanded = c)) ∧
    (20000 < p.live.ramp → step = 1)) ∧
  ∀ p : Pump, p.live.state = .faulted ∨ p.live.state = .locked → p.ramp = p

/-- A poll slot: an unconfigured pump's passes silent; a configured pump is judged for its lock, ramped unless FAULTED
or LOCKED, and polled by six bytes whose sum is 0, and the next slot is the next pump's (R93, R94, R95, R101; log 24).
A manifold's pumps are locked while a PUMP_LOCK of it is active (R101, R172). The Trip Unit takes what the lock
changes of its sources (ReactionsTakeTheirEffects). -/
def Obligations.PollSlotRampsAndPolls : Prop :=
  (∀ (s : State) (m : Manifold), s.pumpLocked m = true ↔
    ∃ r ∈ s.trip.reactions.cells, s.isActive r = true ∧ r.cfg.kind = .pumpLock m) ∧
  ∀ s : State, s.phase = .running →
    let p := s.water.poll.next
    let x := s.water.pumps.get p
    (x.cfg.address = 0 → exec .pollSlot s = .next
      { s with water := { s.water with poll := { s.water.poll with next := nextSlot p, awaiting := none } },
               link := s.link.choose }) ∧
    (x.cfg.address ≠ 0 →
      let lock := s.pumpLocked x.cfg.manifold
      let judged : Pump :=
        if lock = true ∧ x.live.state ≠ .locked then
          { x with live := { x.live with state := .locked, target := 0, commanded := 0, fault := none } }
        else if lock = false ∧ x.live.state = .locked then
          { x with live := { x.live with state := .stopped, target := 0 } }
        else x
      let c := judged.live.commanded
      let g := judged.live.target
      let step := max 1 (20000 / judged.live.ramp)
      let y : Pump :=
        if judged.live.state = .faulted ∨ judged.live.state = .locked then judged
        else { judged with live := { judged.live with
          commanded := if judged.live.ramp = 0 then g else if c < g then min g (c + step) else max g (c - step) } }
      y.request.length = 6 ∧ y.request.foldl (· + ·) 0#8 = 0#8 ∧
      y.request.take 5 = [0x3C#8, BitVec.ofNat 8 x.cfg.address, if y.live.commanded = 0 then 0#8 else 1#8] ++
        le 2 y.live.commanded ∧
      (∃ t, exec .pollSlot s = .next t ∧
        t.water.poll = { next := nextSlot p, awaiting := some p, request := y.request } ∧
        (t.water.pumps.get p).live.state = y.live.state ∧ t.configuration = s.configuration ∧
        t = (({ s with water := { s.water with
                         pumps := s.water.pumps.set p y,
                         poll := { next := nextSlot p, awaiting := some p, request := y.request } },
                       link := s.link.choose } : State).reactFrom { s with link := s.link.choose }).transmit) ∧
      (s.NoReactions → exec .pollSlot s = .next
        { s with water := { s.water with
                   pumps := s.water.pumps.set p y,
                   poll := { next := nextSlot p, awaiting := some p, request := y.request } },
                 link := s.link.choose }))

/-- The end of a poll exchange: a good reply is recorded and acted on by the state's table, a fault reply fails the
pump with the drive's code, a miss counts and the third fails it; a whole reply with a bad sum or another address is a
miss (R94), and bytes that are not a whole reply end no exchange (log 23); an exchange that is not open takes nothing;
a start that has run out fails a STARTING pump (R94, R96, R97, R98, R99; an event that is not due does nothing: log
1). Every entry to FAULTED makes a PUMP notice with the pump, the code, the state before, the actual speed and the
plant time (R99). The transitions of a good reply without a fault (R97). When a free line takes the notice: log 14.
Nothing else changes but what reactions on the pump's fault do (ReactionsTakeTheirEffects). -/
def Obligations.DriveExchangeOutcomes : Prop :=
  (∀ s : State, s.phase = .running →
     let closed : Fin 8 → Pump → LinkPort → State := fun p y l =>
       { s with water := { s.water with pumps := s.water.pumps.set p y,
                                        poll := { s.water.poll with awaiting := none } }, link := l }
     (s.water.poll.awaiting = none →
       (∀ bs, exec (.driveReply bs) s = .next (s.passed [])) ∧ exec .pollMiss s = .next (s.passed [])) ∧
     (∀ p : Fin 8, s.water.poll.awaiting = some p →
       let x := s.water.pumps.get p
       (∀ (a flags low high code sum : Byte), a.toNat = s.water.poll.polled →
         0x3E#8 + a + flags + low + high + code + sum = 0#8 →
         let r : Pump := { x with live := { x.live with
           actual := min 1000 (low.toNat + 256 * high.toNat), ready := flags.getLsbD 0, running := flags.getLsbD 1,
           misses := 0, exchange := if flags.getLsbD 2 then .faultReply else .good } }
         ∃ t, exec (.driveReply [0x3E#8, a, flags, low, high, code, sum]) s = .next t ∧
           t.water.poll = { s.water.poll with awaiting := none } ∧
           (flags.getLsbD 2 = false ∨ x.live.state = .faulted ∨ x.live.state = .locked →
             t = { s with water := { s.water with
                             pumps := s.water.pumps.set p
                               (if x.live.state = .faulted ∨ x.live.state = .locked then r
                                else r.transition s.clock.plantTime),
                             poll := { s.water.poll with awaiting := none } },
                          link := s.link.choose }) ∧
           (flags.getLsbD 2 = true → x.live.state ≠ .faulted → x.live.state ≠ .locked →
             let failed : Pump := { r with live := { r.live with
               state := .faulted, fault := some (.drive code.toNat), target := 0, commanded := 0 } }
             let notice : Notice :=
               .pump p.val (.drive code.toNat) x.live.state (min 1000 (low.toNat + 256 * high.toNat)) s.clock.plantTime
             t.water.pumps.get p = failed ∧
             t = ((closed p failed (s.link.choose.tell notice)).reactFrom (closed p r s.link.choose)).transmit ∧
             (s.NoReactions → t = closed p failed (s.link.after [notice])))) ∧
       (∀ bs : List Byte, bs.length = 7 → bs.head? = some 0x3E#8 →
         bs.foldl (· + ·) 0#8 ≠ 0#8 ∨ (bs.getD 1 0#8).toNat ≠ s.water.poll.polled →
         exec (.driveReply bs) s = exec .pollMiss s) ∧
       (∀ bs : List Byte, bs.length ≠ 7 ∨ bs.head? ≠ some 0x3E#8 → exec (.driveReply bs) s = .next (s.passed [])) ∧
       (∃ t, exec .pollMiss s = .next t ∧ t.water.poll = { s.water.poll with awaiting := none } ∧
         (let missed : Pump := { x with live := { x.live with
            misses := min 255 (x.live.misses + 1), exchange := .miss } }
          let lost := 3 ≤ x.live.misses + 1 ∧ x.live.state ≠ .faulted ∧ x.live.state ≠ .locked
          let failed : Pump := { missed with live := { missed.live with
            state := .faulted, fault := some .linkLost, target := 0, commanded := 0 } }
          let notice : Notice := .pump p.val .linkLost x.live.state x.live.actual s.clock.plantTime
          (¬ lost → t = closed p missed (s.link.after [])) ∧
          (lost → t = ((closed p failed (s.link.choose.tell notice)).reactFrom
            (closed p missed s.link.choose)).transmit)) ∧
         t.water.pumps.get p = { x with live := { x.live with
           misses := min 255 (x.live.misses + 1), exchange := .miss,
           state := if 3 ≤ x.live.misses + 1 ∧ x.live.state ≠ .locked then .faulted else x.live.state,
           fault := if 3 ≤ x.live.misses + 1 ∧ x.live.state ≠ .faulted ∧ x.live.state ≠ .locked then some .linkLost
             else x.live.fault,
           target := if 3 ≤ x.live.misses + 1 ∧ x.live.state ≠ .faulted ∧ x.live.state ≠ .locked then 0
             else x.live.target,
           commanded := if 3 ≤ x.live.misses + 1 ∧ x.live.state ≠ .faulted ∧ x.live.state ≠ .locked then 0
             else x.live.commanded } } ∧
         (s.NoReactions →
           let lost := 3 ≤ x.live.misses + 1 ∧ x.live.state ≠ .faulted ∧ x.live.state ≠ .locked
           let notice : Notice := .pump p.val .linkLost x.live.state x.live.actual s.clock.plantTime
           t = { s with
             water := { s.water with
               pumps := s.water.pumps.set p (t.water.pumps.get p), poll := { s.water.poll with awaiting := none } },
             link := if lost then s.link.after [notice] else s.link.after [] }))) ∧
     (∀ p : Fin 8,
       let x := s.water.pumps.get p
       (x.live.state = .starting → 1000 * x.cfg.startTimeout ≤ elapsed x.live.startTime s.clock.plantTime →
         ∃ t, exec (.startTimeout p) s = .next t ∧
           t.water.pumps.get p = { x with live := { x.live with
             state := .faulted, fault := some .startTimeout, target := 0, commanded := 0 } } ∧
           (let notice : Notice := .pump p.val .startTimeout .starting x.live.actual s.clock.plantTime
            t = (({ s with water := { s.water with pumps := s.water.pumps.set p { x with live := { x.live with
                             state := .faulted, fault := some .startTimeout, target := 0, commanded := 0 } } },
                           link := s.link.choose.tell notice } : State).reactFrom
              { s with link := s.link.choose }).transmit) ∧
           (s.NoReactions → t = { s with
             water := { s.water with pumps := s.water.pumps.set p (t.water.pumps.get p) },
             link := s.link.after [.pump p.val .startTimeout .starting x.live.actual s.clock.plantTime] })) ∧
       (x.live.state ≠ .starting ∨ elapsed x.live.startTime s.clock.plantTime < 1000 * x.cfg.startTimeout →
         exec (.startTimeout p) s = .next (s.passed [])))) ∧
  (∀ (p : Pump) (now : PlantTime),
     let l := p.live
     p.transition now =
       if l.state = .stopped ∧ 0 < l.target ∨ l.state = .stopping ∧ 0 < l.target then
         { p with live := { l with state := .starting, startTime := now } }
       else if (l.state = .starting ∨ l.state = .running) ∧ l.target = 0 then
         { p with live := { l with state := .stopping } }
       else if l.state = .starting ∧ p.cfg.minSpeed ≤ l.actual then { p with live := { l with state := .running } }
       else if l.state = .stopping ∧ l.actual = 0 then { p with live := { l with state := .stopped, commanded := 0 } }
       else p)

/-! ### Manifolds and wind -/

/-- CLOCK_CONFIG: NOT_SAFE in LIVE, BAD_ARGUMENT outside 2 to 20, else the step timeout is replaced and nothing else
(R16). MANIFOLD_CONFIG and WIND_CONFIG: NOT_SAFE in LIVE, BAD_ARGUMENT for a field out of range, else the fields are
replaced; a new wind configuration gives every zone its target for the band in force and clears the calm count (R105,
R121). WIND_BAND_SET: refused in AUTOMATIC; in MANUAL the band carried, at most 7, becomes the manual band and the
band; a change counts, retargets every zone and reports itself (R118, R119). The order of the reply and the notices of
one event: log 14. -/
def Obligations.ClockManifoldWindRequests : Prop :=
  (∀ (s : State) (tag : Byte) (x : Half), s.Ready →
     exec (.clockConfig tag x) s = .next (
       if s.out.mode = .live then s.replied 0x08#8 tag .notSafe []
       else if 2 ≤ x.toNat ∧ x.toNat ≤ 20 then
         ({ s with clock := { s.clock with stepTimeout := x.toNat } }).replied 0x08#8 tag .ok []
       else s.replied 0x08#8 tag .badArgument [])) ∧
  ((∀ (s : State) (tag m : Byte) (reserve : Half), s.Ready →
     (s.out.mode = .live → exec (.manifoldConfig tag m reserve) s = .next (s.replied 0x2C#8 tag .notSafe [])) ∧
     (s.out.mode = .safe → 2 ≤ m.toNat ∨ 16383 < reserve.toNat →
       exec (.manifoldConfig tag m reserve) s = .next (s.replied 0x2C#8 tag .badArgument [])) ∧
     (∀ k : Fin 2, s.out.mode = .safe → m.toNat = k.val → reserve.toNat ≤ 16383 →
       exec (.manifoldConfig tag m reserve) s = .next
         (({ s with water := { s.water with
             manifolds := s.water.manifolds.modify k (fun r => { r with reserve := reserve.toNat }) } }).replied
           0x2C#8 tag .ok []))) ∧
   (∀ (s : State) (tag : Byte) (a : WindArgs), s.Ready → a.wf = true →
     ((windCfgOf a).isSome = true ↔
       1 ≤ a.k.toNat ∧ a.k.toNat ≤ 10000 ∧ (a.thresholds.map BitVec.toNat).Pairwise (· < ·) ∧
         (∀ t ∈ a.thresholds, 1 ≤ t.toNat ∧ t.toNat ≤ 999) ∧
         a.hysteresis.toNat ≤ (a.thresholds.headD 0#16).toNat ∧
         10 ≤ a.calmHold.toNat ∧ a.calmHold.toNat ≤ 600 ∧
         ∀ z ∈ a.zones, (∀ f ∈ z.factors, f.toNat ≤ 256) ∧ 1 ≤ z.drop.toNat ∧ z.drop.toNat ≤ 256 ∧
           1 ≤ z.recover.toNat ∧ z.recover.toNat ≤ 256) ∧
     (s.out.mode = .live → exec (.windConfig tag a) s = .next (s.replied 0x30#8 tag .notSafe [])) ∧
     (s.out.mode = .safe → windCfgOf a = none →
       exec (.windConfig tag a) s = .next (s.replied 0x30#8 tag .badArgument [])) ∧
     (∀ cfg, s.out.mode = .safe → windCfgOf a = some cfg →
       cfg.k = a.k.toNat ∧ cfg.thresholds = a.thresholds.map BitVec.toNat ∧ cfg.hysteresis = a.hysteresis.toNat ∧
       cfg.calmHold = a.calmHold.toNat ∧
       cfg.zones.cells = a.zones.map (fun z =>
         { factors := z.factors.map BitVec.toNat, drop := z.drop.toNat, recover := z.recover.toNat }) ∧
       ∃ t, exec (.windConfig tag a) s = .next t ∧
         t = ({ s with wind := { s.wind with cfg := cfg, calm := 0, zones := t.wind.zones } }).replied 0x30#8 tag .ok [] ∧
         ∀ z : Fin 4, t.wind.zones.get z =
           { s.wind.zones.get z with target := (cfg.zones.get z).factors.getD s.wind.band 256,
                                     sourceBand := s.wind.band }))) ∧
  (∀ (s : State) (tag b : Byte), s.Ready →
     ((∃ c ∈ s.trip.conditions.cells, c.cfg.role = .windPulse) →
       exec (.windBandSet tag b) s = .next (s.replied 0x31#8 tag .badState [])) ∧
     ((∀ c ∈ s.trip.conditions.cells, c.cfg.role ≠ .windPulse) → min b.toNat 7 = s.wind.band →
       exec (.windBandSet tag b) s = .next
         (({ s with wind := { s.wind with manualBand := min b.toNat 7 } }).replied 0x31#8 tag .ok
           (le 1 (min b.toNat 7)))) ∧
     ((∀ c ∈ s.trip.conditions.cells, c.cfg.role ≠ .windPulse) → min b.toNat 7 ≠ s.wind.band →
       ∃ t, exec (.windBandSet tag b) s = .next t ∧
         t.wind = { s.wind with
           manualBand := min b.toNat 7, band := min b.toNat 7,
           bandChanges := min 65535 (s.wind.bandChanges + 1), zones := t.wind.zones } ∧
         (∀ z : Fin 4, t.wind.zones.get z =
           { s.wind.zones.get z with target := (s.wind.cfg.zones.get z).factors.getD (min b.toNat 7) 256,
                                     sourceBand := min b.toNat 7 }) ∧
         (s.NoReactions → t = ({ s with wind := t.wind }).repliedTelling
           [.wind .manual s.wind.band (min b.toNat 7) s.wind.lastAverage s.clock.plantTime] 0x31#8 tag .ok
           (le 1 (min b.toNat 7)))))

/-- A gate end 1000 ms or more after the gate began: the speed enters the history, the average is recorded, the next
gate begins; in AUTOMATIC the band rises to the highest threshold reached, or falls by one after a calm hold, or
stands; in MANUAL it stands (R113, R114, R115, R116). A rise and a fall are a change of band with that cause, before
the next gate begins; without one nothing but the gate, the average and the calm count changes. What a change of band
does: the count rises by one, to at most 65535, the band is the new one, every zone's target is its factor for it and
its source band is the new one, its applied factor stands, a WIND notice holds the cause, the old and the new band,
the last average and the plant time, and the Trip Unit then takes the change (R119). A gate not yet over does not end
(log 1). When a free line takes the notice: log 14. -/
def Obligations.GateEndMeasures : Prop :=
  (∀ (s : State) (cause : WindCause) (b : Nat),
    let t := s.changeBand cause b
    let changed : State := { s with
      wind := t.wind, link := s.link.tell (.wind cause s.wind.band b s.wind.lastAverage s.clock.plantTime) }
    t.wind = { s.wind with band := b, bandChanges := min 65535 (s.wind.bandChanges + 1), zones := t.wind.zones } ∧
    (∀ z : Fin 4, t.wind.zones.get z =
      { s.wind.zones.get z with target := (s.wind.cfg.zones.get z).factors.getD b 256, sourceBand := b }) ∧
    t = changed.reactFrom s ∧ (s.NoReactions → t = changed)) ∧
  ∀ s : State, s.phase = .running →
    (elapsed s.wind.gateStart s.clock.plantTime < 1000 → exec .gateEnd s = .next (s.passed [])) ∧
    (1000 ≤ elapsed s.wind.gateStart s.clock.plantTime → s.wind.cfg.InRange → s.wind.band ≤ 7 →
      let speed := min 999 ((s.wind.gateCount * s.wind.cfg.k + 50) / 100)
      let a := (speed + s.wind.history.newest + s.wind.history.middle) / 3
      let b := s.wind.band
      let automatic := ∃ c ∈ s.trip.conditions.cells, c.cfg.role = .windPulse
      let measured : Nat → State := fun calm => { s with
        wind := { s.wind with history := ⟨speed, s.wind.history.newest, s.wind.history.middle⟩, lastAverage := a,
                              calm := calm },
        link := s.link.choose }
      let opened : State → State := fun u =>
        ({ u with wind := { u.wind with gateCount := 0, gateStart := s.clock.plantTime } }).transmit
      let told : WindCause → Nat → LinkPort := fun cause new =>
        s.link.after [.wind cause b new a s.clock.plantTime]
      ∃ t, exec .gateEnd s = .next t ∧ t.wind.history = ⟨speed, s.wind.history.newest, s.wind.history.middle⟩ ∧
        t.wind.lastAverage = a ∧ t.wind.gateCount = 0 ∧ t.wind.gateStart = s.clock.plantTime ∧
        t.wind.cfg = s.wind.cfg ∧ t.wind.manualBand = s.wind.manualBand ∧ t.wind.nextTrim = s.wind.nextTrim ∧
        (¬ automatic → t = { s with wind := { t.wind with band := b, calm := s.wind.calm, zones := s.wind.zones,
                                                          bandChanges := s.wind.bandChanges },
                                    link := s.link.choose }) ∧
        (automatic → b < 7 → s.wind.cfg.threshold (b + 1) ≤ a →
          t.wind.calm = 0 ∧ b < t.wind.band ∧ t.wind.band ≤ 7 ∧ s.wind.cfg.threshold t.wind.band ≤ a ∧
          (t.wind.band < 7 → a < s.wind.cfg.threshold (t.wind.band + 1)) ∧
          t = opened ((measured 0).changeBand .rise t.wind.band) ∧
          t.wind.bandChanges = min 65535 (s.wind.bandChanges + 1) ∧
          (s.NoReactions → t.link = told .rise t.wind.band)) ∧
        (automatic → (b = 7 ∨ a < s.wind.cfg.threshold (b + 1)) → 1 ≤ b →
          a + s.wind.cfg.hysteresis < s.wind.cfg.threshold b →
          (s.wind.calm + 1 = s.wind.cfg.calmHold → t.wind.band = b - 1 ∧ t.wind.calm = 0 ∧
            t = opened ((measured 0).changeBand .fall (b - 1)) ∧
            t.wind.bandChanges = min 65535 (s.wind.bandChanges + 1) ∧ (s.NoReactions → t.link = told .fall (b - 1))) ∧
          (s.wind.calm + 1 ≠ s.wind.cfg.calmHold → t.wind.band = b ∧ t.wind.calm = s.wind.calm + 1 ∧
            t = opened (measured (s.wind.calm + 1)))) ∧
        (automatic → (b = 7 ∨ a < s.wind.cfg.threshold (b + 1)) →
          (b = 0 ∨ s.wind.cfg.threshold b ≤ a + s.wind.cfg.hysteresis) → t.wind.band = b ∧ t.wind.calm = 0 ∧
            t = opened (measured 0)))

/-- A trim step that is due moves every zone's applied factor toward its target by at most its step and sets the next
one 100 ms later (R120); one that is not due does nothing (log 1). -/
def Obligations.TrimStepMoves : Prop :=
  ∀ s : State, s.phase = .running →
    (2 ^ 31 ≤ (s.clock.plantTime - s.wind.nextTrim).toNat → exec .trimStep s = .next (s.passed [])) ∧
    ((s.clock.plantTime - s.wind.nextTrim).toNat < 2 ^ 31 →
      ∃ t, exec .trimStep s = .next t ∧
        t = { s with wind := { s.wind with nextTrim := s.wind.nextTrim + 100, zones := t.wind.zones },
                     link := s.link.choose } ∧
        ∀ z : Fin 4,
          let w := (s.wind.zones.get z).applied
          let x := (s.wind.zones.get z).target
          t.wind.zones.get z = { s.wind.zones.get z with
            applied := if x < w then max x (w - (s.wind.cfg.zones.get z).drop)
              else if w < x then min x (w + (s.wind.cfg.zones.get z).recover) else w })

/-! ### Lighting -/

/-- FIXTURE_CONFIG, FIXTURE_GROUP_CONFIG and LIGHTING_CONFIG: NOT_SAFE in LIVE, BAD_ARGUMENT for a field out of range,
SLOT_OVERLAP with the lowest fixture whose slots are shared, else the record is replaced and nothing else changes but
the next frame's time, which stands before the first frame (R123, R124, R125, R126; the first frame's time: log 17).
-/
def Obligations.LightConfigRequests : Prop :=
  (∀ (s : State) (tag : Byte) (a : FixtureArgs), s.Ready →
    (s.out.mode = .live → exec (.fixtureConfig tag a) s = .next (s.replied 0x38#8 tag .notSafe [])) ∧
    (s.out.mode = .safe →
      (96 ≤ a.fixture.toNat ∨ 509 < a.base.toNat ∨ 500 < a.lead.toNat ∨ 2 < a.kind.toNat ∨
        (a.bound ≠ 0xFF#8 ∧ (48 ≤ a.bound.toNat ∨ a.kind ≠ 1#8))) →
      exec (.fixtureConfig tag a) s = .next (s.replied 0x38#8 tag .badArgument [])) ∧
    (∀ (x : Fin 96) (bound : Option (Fin 48)), s.out.mode = .safe → a.fixture.toNat = x.val → a.base.toNat ≤ 509 →
      a.lead.toNat ≤ 500 → a.kind.toNat ≤ 2 →
      (a.bound = 0xFF#8 ∧ bound = none ∨ ∃ c : Fin 48, a.kind = 1#8 ∧ a.bound.toNat = c.val ∧ bound = some c) →
      let shares : Fin 96 → Prop := fun y => y ≠ x ∧ a.base.toNat ≠ 0 ∧ (s.light.fixtures.get y).cfg.base ≠ 0 ∧
        a.base.toNat < (s.light.fixtures.get y).cfg.base + 4 ∧ (s.light.fixtures.get y).cfg.base < a.base.toNat + 4
      (∀ y, shares y → (∀ z, z.val < y.val → ¬ shares z) →
        exec (.fixtureConfig tag a) s = .next (s.replied 0x38#8 tag .slotOverlap (le 1 y.val))) ∧
      ((∀ y, ¬ shares y) →
        let cfg : FixtureCfg :=
          { base := a.base.toNat, kind := if a.kind = 0#8 then .basin else if a.kind = 1#8 then .jet else .deck,
            bound := bound, lead := a.lead.toNat }
        exec (.fixtureConfig tag a) s = .next
          (({ s with light := { s.light with
              fixtures := s.light.fixtures.modify x (fun f => { f with cfg := cfg }) } }).replied 0x38#8 tag .ok [])))) ∧
  (∀ (s : State) (tag : Byte) (a : FixtureGroupArgs), s.Ready →
    (s.out.mode = .live → exec (.fixtureGroupConfig tag a) s = .next (s.replied 0x39#8 tag .notSafe [])) ∧
    (s.out.mode = .safe → 16 ≤ a.group.toNat ∨ 500 < a.lead.toNat →
      exec (.fixtureGroupConfig tag a) s = .next (s.replied 0x39#8 tag .badArgument [])) ∧
    (∀ g : Fin 16, s.out.mode = .safe → a.group.toNat = g.val → a.lead.toNat ≤ 500 →
      exec (.fixtureGroupConfig tag a) s = .next
        (({ s with light := { s.light with
            groups := s.light.groups.set g { members := a.members, lead := a.lead.toNat } } }).replied
          0x39#8 tag .ok []))) ∧
  (∀ (s : State) (tag : Byte) (a : LightingArgs), s.Ready →
    (s.out.mode = .live → exec (.lightingConfig tag a) s = .next (s.replied 0x3A#8 tag .notSafe [])) ∧
    (s.out.mode = .safe → a.period.toNat < 25 ∨ 1000 < a.period.toNat →
      exec (.lightingConfig tag a) s = .next (s.replied 0x3A#8 tag .badArgument [])) ∧
    (s.out.mode = .safe → 25 ≤ a.period.toNat → a.period.toNat ≤ 1000 → s.light.line ≠ [] →
      exec (.lightingConfig tag a) s = .next
        (({ s with light := { s.light with
            settings := { dryLimit := a.dry.toNat, idleColour := ⟨a.r.toNat, a.g.toNat, a.b.toNat, a.w.toNat⟩,
                          idleMaster := a.idleMaster.toNat, safeWhite := a.safeWhite.toNat,
                          period := a.period.toNat },
            nextFrame := s.light.lastFrame + BitVec.ofNat 32 a.period.toNat } }).replied 0x3A#8 tag .ok [])) ∧
    (s.out.mode = .safe → 25 ≤ a.period.toNat → a.period.toNat ≤ 1000 → s.light.line = [] →
      exec (.lightingConfig tag a) s = .next
        (({ s with light := { s.light with
            settings := { dryLimit := a.dry.toNat, idleColour := ⟨a.r.toNat, a.g.toNat, a.b.toNat, a.w.toNat⟩,
                          idleMaster := a.idleMaster.toNat, safeWhite := a.safeWhite.toNat,
                          period := a.period.toNat } } }).replied 0x3A#8 tag .ok [])))

/-- JET_SET: the checks in order; then every channel reached begins a fade from the height it has to the height
carried, at most 4095, takes the level code, and leaves its abort close; the reply counts the channels reached (R73,
R74). FIXTURE_SET: the checks in order; then every fixture reached begins a fade from the colour it has to the colour
carried, each component times 257, and takes the master and the mode; the reply counts the fixtures reached (R129,
R130). That a group byte of 2 or more is a bad argument is the model's choice (log 28). -/
def Obligations.DirectSetsDeliver : Prop :=
  (∀ (s : State) (tag : Byte) (a : JetSetArgs), s.Ready →
     (s.seq.state ≠ .idle → exec (.jetSet tag a) s = .next (s.replied 0x22#8 tag .showRunning [])) ∧
     (s.seq.state = .idle →
       (¬ (a.group = 0#8 ∧ a.index.toNat < 48 ∨ a.group = 1#8 ∧ a.index.toNat < 16) ∨
         ¬ (a.level.toNat < 8 ∨ a.level = 0xFF#8 ∨ a.level = 0xFE#8)) →
       exec (.jetSet tag a) s = .next (s.replied 0x22#8 tag .badArgument [])) ∧
     (∀ reach : Fin 48 → Bool, s.seq.state = .idle →
       (a.group = 0#8 ∧ a.index.toNat < 48 ∧ (∀ c, reach c = (a.index.toNat == c.val)) ∨
         ∃ g : Fin 16, a.group = 1#8 ∧ a.index.toNat = g.val ∧
           ∀ c, reach c = (s.jets.groups.get g).members.getLsbD c.val) →
       (a.level.toNat < 8 ∨ a.level = 0xFF#8 ∨ a.level = 0xFE#8) →
       ∃ t, exec (.jetSet tag a) s = .next t ∧
         t = ({ s with jets := { s.jets with channels := t.jets.channels } }).replied 0x22#8 tag .ok
           (le 2 ((List.finRange 48).filter reach).length) ∧
         ∀ c : Fin 48, t.jets.channels.get c =
           if reach c then
             { s.jets.channels.get c with live := { (s.jets.channels.get c).live with
                 fade := { start := (s.jets.channels.get c).live.fade.valueAt s.clock.plantTime,
                           target := min a.height.toNat 4095, t0 := s.clock.plantTime, duration := a.fade.toNat,
                           held := false },
                 override := if a.level = 0xFF#8 then (s.jets.channels.get c).live.override
                   else if a.level = 0xFE#8 then none else some a.level.toNat,
                 abortClose := false } }
           else s.jets.channels.get c)) ∧
  (∀ (s : State) (tag : Byte) (a : FixtureSetArgs), s.Ready →
     (s.seq.state ≠ .idle → exec (.fixtureSet tag a) s = .next (s.replied 0x3B#8 tag .showRunning [])) ∧
     (s.seq.state = .idle →
       (¬ (a.group = 0#8 ∧ a.index.toNat < 96 ∨ a.group = 1#8 ∧ a.index.toNat < 16) ∨ 2 ≤ a.mode.toNat) →
       exec (.fixtureSet tag a) s = .next (s.replied 0x3B#8 tag .badArgument [])) ∧
     (∀ reach : Fin 96 → Bool, s.seq.state = .idle →
       (a.group = 0#8 ∧ a.index.toNat < 96 ∧ (∀ x, reach x = (a.index.toNat == x.val)) ∨
         ∃ g : Fin 16, a.group = 1#8 ∧ a.index.toNat = g.val ∧
           ∀ x, reach x = (s.light.groups.get g).members.getLsbD x.val) →
       a.mode.toNat < 2 →
       ∃ t, exec (.fixtureSet tag a) s = .next t ∧
         t = ({ s with light := { s.light with fixtures := t.light.fixtures } }).replied 0x3B#8 tag .ok
           (le 2 ((List.finRange 96).filter reach).length) ∧
         ∀ x : Fin 96, t.light.fixtures.get x =
           if reach x then
             { s.light.fixtures.get x with live := { (s.light.fixtures.get x).live with
                 fade := { start := (s.light.fixtures.get x).live.fade.valueAt s.clock.plantTime,
                           target := ⟨a.r.toNat * 257, a.g.toNat * 257, a.b.toNat * 257, a.w.toNat * 257⟩,
                           t0 := s.clock.plantTime, duration := a.fade.toNat, held := false },
                 master := a.master.toNat, mode := if a.mode = 0#8 then .steady else .follow } }
           else s.light.fixtures.get x))

/-- A lighting frame that is due on an idle line: in LIVE a fixture's intensity is exactly the least of its master (in
FOLLOW the master's share of the envelope), the dry limit when it is gated, and each active lamp limit that covers it,
and its record holds it with the limits that lowered it and the output bytes; in SAFE the decks show the safe white
and the rest is dark; the line carries a start code and as many slots as the highest slot of an assigned fixture, or
24 where that is more, an assigned fixture's bytes at its own slots and 0 in every other slot (R132, R133, R134, R135,
R137, R138). A frame that finds the line busy is not taken (R132; the end of a frame on the line: log 21), nor is one
that is not due (log 1). A lamp limit covers a kind when it names it or ALL (R135). The output bytes of a fixture in a
LIVE frame (R136), from the colour that its fade gives component by component (R128). -/
def Obligations.LightingFrameCaps : Prop :=
  (∀ s : State, s.phase = .running →
     let due : Prop := (s.clock.plantTime - s.light.nextFrame).toNat < 2 ^ 31 ∧
       (s.light.line = [] ∨ 112 + 44 * (s.light.lastSlots + 1) ≤ 1000 * elapsed s.light.lastFrame s.clock.plantTime)
     (¬ due → exec .lightingFrame s = .next (s.passed [])) ∧
     (due → ∃ t, exec .lightingFrame s = .next t ∧ t = { s with light := t.light, link := s.link.choose } ∧
       t.light.settings = s.light.settings ∧ t.light.groups = s.light.groups ∧
       t.light.frameCount = s.light.frameCount + 1 ∧ t.light.lastFrame = s.clock.plantTime ∧
       t.light.nextFrame = s.clock.plantTime + BitVec.ofNat 32 s.light.settings.period ∧
       t.light.line.length = t.light.lastSlots + 1 ∧ 24 ≤ t.light.lastSlots ∧ t.light.line.head? = some 0#8 ∧
       (let base : Fin 96 → Nat := fun x => (s.light.fixtures.get x).cfg.base
        (∀ x, 1 ≤ base x → base x + 3 ≤ t.light.lastSlots) ∧
        (t.light.lastSlots = 24 ∨ ∃ x, 1 ≤ base x ∧ t.light.lastSlots = base x + 3) ∧
        ∀ k, 1 ≤ k → k ≤ t.light.lastSlots → (∀ x, ¬ (1 ≤ base x ∧ base x ≤ k ∧ k ≤ base x + 3)) →
          t.light.line[k]? = some 0#8) ∧
       (s.out.mode = .live → t.light.lastEnvelope = some s.audio.envelope) ∧
       ∀ x : Fin 96,
         let f := s.light.fixtures.get x
         let g := t.light.fixtures.get x
         g.cfg = f.cfg ∧ g.live.fade = f.live.fade ∧ g.live.master = f.live.master ∧ g.live.mode = f.live.mode ∧
         (s.out.mode = .safe →
           let w := if f.cfg.kind = .deck then s.light.settings.safeWhite else 0
           g.live.output = ⟨0, 0, 0, w⟩ ∧ g.live.intensity = w ∧
             g.live.limits = { dry := false, limit := false, safe := true }) ∧
         (s.out.mode = .live →
           (f.live.mode = .steady → g.live.intensity ≤ f.live.master) ∧
           (f.live.mode = .follow → g.live.intensity ≤ f.live.master * s.audio.envelope / 255) ∧
           (∀ c, f.cfg.bound = some c → (s.jets.channels.get c).live.grant = 0 →
             g.live.intensity ≤ s.light.settings.dryLimit) ∧
           (∀ r ∈ s.trip.reactions.cells, s.isActive r = true → ∀ k v, r.cfg.kind = .lampLimit k v →
             k.covers f.cfg.kind = true → g.live.intensity ≤ v) ∧
           (let base := if f.live.mode = .steady then f.live.master else f.live.master * s.audio.envelope / 255
            let gated := match f.cfg.bound with
              | some c => if (s.jets.channels.get c).live.grant = 0 then min base s.light.settings.dryLimit else base
              | none => base
            let i := g.live.intensity
            let c := f.live.fade.valueAt s.clock.plantTime
            i ≤ gated ∧
            (i = gated ∨ ∃ r ∈ s.trip.reactions.cells, s.isActive r = true ∧ ∃ k, r.cfg.kind = .lampLimit k i ∧
              (k = .all ∨ k = .only f.cfg.kind)) ∧
            g.live.limits = { dry := decide (gated < base), limit := decide (i < gated), safe := false } ∧
            g.live.output = ⟨(c.r / 256 * i + 127) / 255, (c.g / 256 * i + 127) / 255, (c.b / 256 * i + 127) / 255,
              (c.w / 256 * i + 127) / 255⟩)) ∧
         (1 ≤ f.cfg.base → (∀ y : Fin 96, y ≠ x → basesOverlap f.cfg.base (s.light.fixtures.get y).cfg.base = false) →
           t.light.line.getD f.cfg.base 0#8 = BitVec.ofNat 8 g.live.output.r ∧
           t.light.line.getD (f.cfg.base + 1) 0#8 = BitVec.ofNat 8 g.live.output.g ∧
           t.light.line.getD (f.cfg.base + 2) 0#8 = BitVec.ofNat 8 g.live.output.b ∧
           t.light.line.getD (f.cfg.base + 3) 0#8 = BitVec.ofNat 8 g.live.output.w))) ∧
  (∀ (k : LampKind) (x : FixtureKind), k.covers x = true ↔ k = .all ∨ k = .only x) ∧
  (∀ (f : ColourFade) (now : PlantTime),
     let one : Nat → Nat → Nat := fun a b =>
       ({ start := a, target := b, t0 := f.t0, duration := f.duration, held := f.held } : Fade).valueAt now
     f.valueAt now = ⟨one f.start.r f.target.r, one f.start.g f.target.g, one f.start.b f.target.b,
       one f.start.w f.target.w⟩) ∧
  (∀ (f : Fixture) (now : PlantTime) (env dryLimit : Nat) (grant : Option Nat) (caps : List Nat),
     let o := (f.frame now env dryLimit grant caps).live
     let c := f.live.fade.valueAt now
     o.output = ⟨(c.r / 256 * o.intensity + 127) / 255, (c.g / 256 * o.intensity + 127) / 255,
       (c.b / 256 * o.intensity + 127) / 255, (c.w / 256 * o.intensity + 127) / 255⟩ ∧
     ∀ b i : Nat, b ≤ 255 →
       (b = 255 → (b * i + 127) / 255 = i) ∧ (b * i + 127) / 255 ≤ i ∧ (i = 0 → (b * i + 127) / 255 = 0) ∧
       255 * ((b * i + 127) / 255) ≤ b * i + 127 ∧ b * i < 255 * ((b * i + 127) / 255) + 128)

/-! ### Music and the flash -/

/-- TRACK_DEFINE and AUDIO_CONFIG: their checks in order, and their effects; nothing else changes (R141, R157). -/
def Obligations.AudioRequests : Prop :=
  (∀ (s : State) (tag : Byte) (a : TrackArgs), s.Ready →
    (s.out.mode = .live → exec (.trackDefine tag a) s = .next (s.replied 0x40#8 tag .notSafe [])) ∧
    (s.out.mode = .safe → 64 ≤ a.track.toNat ∨ 2 ≤ a.format.toNat →
      exec (.trackDefine tag a) s = .next (s.replied 0x40#8 tag .badArgument [])) ∧
    (∀ n : Fin 64, s.out.mode = .safe → a.track.toNat = n.val → a.format.toNat < 2 →
      let bytes := if a.format = 0#8 then 4 else 2
      let track : Track := { start := a.start.toNat, frames := a.frames.toNat,
                             format := if a.format = 0#8 then .stereo16 else .mono16 }
      exec (.trackDefine tag a) s = .next
        (if a.frames = 0#32 then
          ({ s with audio := { s.audio with tracks := s.audio.tracks.set n none } }).replied 0x40#8 tag .ok []
        else if a.start.toNat % 4096 = 0 ∧ 1048576 ≤ a.start.toNat ∧
            a.start.toNat + a.frames.toNat * bytes ≤ 1073741824 then
          ({ s with audio := { s.audio with tracks := s.audio.tracks.set n (some track) } }).replied 0x40#8 tag .ok []
        else s.replied 0x40#8 tag .badArgument []))) ∧
  (∀ (s : State) (tag release : Byte) (gain : Half), s.Ready →
    exec (.audioConfig tag gain release) s = .next
      (if release = 0#8 then s.replied 0x42#8 tag .badArgument []
      else ({ s with audio := { s.audio with masterGain := min gain.toNat 4096,
                                             release := release.toNat } }).replied 0x42#8 tag .ok []))

/-- The output frame event completes in every state: the samples stay within 16 bits less the lowest value and begin
their serial frame, left first, each word most significant bit first and one bit clock late; the block counts the
frame and its peak; a lone stream inside a slot is heard as its frame times its gain times the master gain, and moves
on by one frame; with no stream sounding, or a silence running, the output is silence (R148, R152; the frame's phase:
log 43). With several streams PLAYING or STOPPING the mix is the sum of their frames times their gains, its
round-shift by 24 saturated, and the clip flag is set exactly by a saturation; a PAUSED, LOADING or IDLE stream does
not move (R148, R152, R155). What a slot boundary decides: the resync of S0 beyond 4800 frames of error, else the
underrun of an empty head slot, else the slip of S0 beyond 48 frames, each with its record and notice (R149, R154,
R156; the readings of slots and silence: log 18); so a lone stream at a boundary gives its head frame once, gives it
twice without moving, or passes it over, and an underrun begins 512 silent frames that count. ENVELOPE_EVENT takes a
whole block (R153; one block of 512 at a time: log 26), and a stop fade that has ended turns its stream IDLE (R151);
either does nothing when it is not due (log 1). The natural end is then judged: it stands in PLAYING with the reader
past the last cue, the queue empty and S0 IDLE, and begins the ending with reason NATURAL (R47). -/
def Obligations.AudioEvents : Prop :=
  (∀ (s : State) (i : Fin 4),
    let x := s.audio.streams.get i
    let e : Int := x.framesOutput - 48 * s.clock.position
    let judged := i = 0 ∧ x.state = .playing ∧ s.seq.state = .playing ∧ s.clock.source = .external
    let discarded := s.audio.read.map (fun r => if r.stream = i then { r with discarded := true } else r)
    (∀ (k : Fin 64) (d : Track), judged → 4800 < e ∨ e < -4800 → 0 ≤ s.clock.position → x.track = k.val →
      s.audio.tracks.get k = some d →
      let j := 48 * s.clock.position.toNat + 512
      let jumped : Stream := { x with
        ring := [], headPos := 0, framesOutput := j, leftToRead := d.frames - j, leftToPlay := d.frames - j,
        nextAddress := d.start + j * x.format.frameBytes, silenceLeft := 512, silencePasses := false,
        boundary := false }
      let notice : Notice := .audio .resync 0 k.val j x.underruns e s.clock.position s.clock.plantTime
      s.judgeBoundary i = ({ s with
        audio := { s.audio with
          streams := s.audio.streams.set i (if d.frames ≤ j then { jumped with state := .idle, silenceLeft := 0 }
            else jumped),
          read := discarded },
        link := s.link.tell notice }, .none)) ∧
    (¬ (judged ∧ (4800 < e ∨ e < -4800)) → x.ring = [] →
      let reading : Prop := ∃ r, s.audio.read = some r ∧ r.stream = i ∧ r.discarded = false
      let record : Stream := { x with
        silenceLeft := 512, silencePasses := true, headPos := 0, boundary := false,
        underruns := min 65535 (x.underruns + 1) }
      let notice : Notice :=
        .audio .underrun i.val x.track x.framesOutput record.underruns 0 s.clock.position s.clock.plantTime
      let after : Stream → State := fun y => { s with
        audio := { s.audio with streams := s.audio.streams.set i y, read := discarded }, link := s.link.tell notice }
      (reading → s.judgeBoundary i = (after record, .none)) ∧
      (¬ reading → s.judgeBoundary i =
        (after { record with nextAddress := x.nextAddress + 512 * x.format.frameBytes,
                             leftToRead := x.leftToRead - 512 }, .none))) ∧
    (¬ (judged ∧ (4800 < e ∨ e < -4800)) → x.ring ≠ [] →
      let after : State := { s with audio := { s.audio with
        streams := s.audio.streams.set i { x with boundary := false } } }
      (judged → 48 < e → s.judgeBoundary i = (after, .repeatFirst)) ∧
      (judged → e < -48 → s.judgeBoundary i = (after, .skipFirst)) ∧
      (¬ judged ∨ -48 ≤ e ∧ e ≤ 48 → s.judgeBoundary i = (after, .none)))) ∧
  ∀ s : State, s.phase = .running →
    (∃ t, exec .outputFrame s = .next t ∧ -32767 ≤ t.audio.outLeft ∧ t.audio.outLeft ≤ 32767 ∧
      -32767 ≤ t.audio.outRight ∧ t.audio.outRight ≤ 32767 ∧ t.audio.blockCount = s.audio.blockCount + 1 ∧
      t.audio.blockPeak = max s.audio.blockPeak (max t.audio.outLeft.natAbs t.audio.outRight.natAbs) ∧
      t.clock.plantTime = s.clock.plantTime ∧ t.configuration = s.configuration ∧ t.flash = s.flash ∧
      (let bit : Int → Nat → Bool := fun x n => (BitVec.ofInt 16 x).getLsbD n
       t.audio.serial.length = 32 ∧
       t.audio.serial[0]? = some { word := false, data := bit s.audio.outRight 0 } ∧
       t.audio.serial[16]? = some { word := true, data := bit t.audio.outLeft 0 } ∧
       ∀ k : Fin 15, t.audio.serial[1 + k.val]? = some { word := false, data := bit t.audio.outLeft (15 - k.val) } ∧
         t.audio.serial[17 + k.val]? = some { word := true, data := bit t.audio.outRight (15 - k.val) }) ∧
      ((∀ i : Fin 4, (s.audio.streams.get i).state.sounding = false) →
        t.audio.outLeft = 0 ∧ t.audio.outRight = 0 ∧ t.audio.clip = s.audio.clip) ∧
      (∀ (i : Fin 4) (slot : List AudioFrame) (rest : List (List AudioFrame)) (f : AudioFrame),
        let x := s.audio.streams.get i
        x.state = .playing → x.boundary = false → x.silenceLeft = 0 → x.ring = slot :: rest →
        slot[x.headPos]? = some f →
        (∀ j : Fin 4, j ≠ i → (s.audio.streams.get j).state.sounding = false) →
        let gain := x.gain.valueAt s.clock.plantTime
        t.audio.outLeft = (saturate (roundShift (f.left * gain * s.audio.masterGain) 24)).1 ∧
        t.audio.outRight = (saturate (roundShift (f.right * gain * s.audio.masterGain) 24)).1 ∧
        (t.audio.streams.get i).framesOutput = x.framesOutput + 1 ∧
        (t.audio.streams.get i).leftToPlay = x.leftToPlay - 1) ∧
      (∀ i : Fin 4,
        let x := s.audio.streams.get i
        let y := t.audio.streams.get i
        x.state ≠ .playing → x.state ≠ .stopping →
          y.framesOutput = x.framesOutput ∧ y.leftToPlay = x.leftToPlay ∧
          (s.seq.state ≠ .playing → y = { x with nextAddress := y.nextAddress, leftToRead := y.leftToRead })) ∧
      (∀ f : Fin 4 → AudioFrame,
        let x : Fin 4 → Stream := s.audio.streams.get
        (∀ i, ((x i).state = .playing ∨ (x i).state = .stopping) → (x i).boundary = false ∧
          (0 < (x i).silenceLeft ∧ f i = ⟨0, 0⟩ ∨
            (x i).silenceLeft = 0 ∧ ∃ slot rest, (x i).ring = slot :: rest ∧ slot[(x i).headPos]? = some (f i))) →
        (∀ i, (x i).state ≠ .playing → (x i).state ≠ .stopping → f i = ⟨0, 0⟩) →
        let gain : Fin 4 → Int := fun i => (x i).gain.valueAt s.clock.plantTime
        let mix : (AudioFrame → Int) → Int := fun side =>
          side (f 0) * gain 0 + side (f 1) * gain 1 + side (f 2) * gain 2 + side (f 3) * gain 3
        let shifted : (AudioFrame → Int) → Int := fun side => (mix side * s.audio.masterGain + 8388608) / 16777216
        let beyond : Int → Prop := fun y => 32767 < y ∨ y < -32767
        t.audio.outLeft = max (-32767) (min 32767 (shifted (·.left))) ∧
        t.audio.outRight = max (-32767) (min 32767 (shifted (·.right))) ∧
        (t.audio.clip = true ↔ s.audio.clip = true ∨ beyond (shifted (·.left)) ∨ beyond (shifted (·.right))) ∧
        ∀ i, ((x i).state = .playing ∨ (x i).state = .stopping) → (x i).silenceLeft = 0 →
          (t.audio.streams.get i).framesOutput = (x i).framesOutput + 1 ∧
          (t.audio.streams.get i).leftToPlay = (x i).leftToPlay - 1) ∧
      (∀ i : Fin 4,
        let x := s.audio.streams.get i
        x.state = .playing → (∀ j : Fin 4, j ≠ i → (s.audio.streams.get j).state.sounding = false) →
        let gain := x.gain.valueAt s.clock.plantTime
        let e : Int := x.framesOutput - 48 * s.clock.position
        let judged := i = 0 ∧ s.seq.state = .playing ∧ s.clock.source = .external
        let heard : AudioFrame → Prop := fun f =>
          t.audio.outLeft = (saturate (roundShift (f.left * gain * s.audio.masterGain) 24)).1 ∧
          t.audio.outRight = (saturate (roundShift (f.right * gain * s.audio.masterGain) 24)).1
        let passed : Nat → Prop := fun n =>
          (t.audio.streams.get i).framesOutput = x.framesOutput + n ∧
          (t.audio.streams.get i).leftToPlay = x.leftToPlay - n
        (x.boundary = false → 0 < x.silenceLeft → t.audio.outLeft = 0 ∧ t.audio.outRight = 0) ∧
        (∀ (f g : AudioFrame) (frames : List AudioFrame) (rest : List (List AudioFrame)),
          x.boundary = true → x.silenceLeft = 0 → x.headPos = 0 → x.ring = (f :: g :: frames) :: rest →
          (¬ judged ∨ -48 ≤ e ∧ e ≤ 48 → heard f ∧ passed 1) ∧
          (judged → 48 < e → e ≤ 4800 → heard f ∧ passed 0) ∧
          (judged → -4800 ≤ e → e < -48 → 2 ≤ x.leftToPlay → heard g ∧ passed 2)) ∧
        (x.boundary = true → x.ring = [] → ¬ (judged ∧ (4800 < e ∨ e < -4800)) →
          t.audio.outLeft = 0 ∧ t.audio.outRight = 0 ∧ passed 1 ∧
          (t.audio.streams.get i).underruns = min 65535 (x.underruns + 1) ∧
          (i = 0 → 2 ≤ x.leftToPlay → (t.audio.streams.get i).silenceLeft = 511)))) ∧
    (let p := s.audio.blockPeak / 128
     let env := if s.audio.envelope ≤ p then p else max p (s.audio.envelope - s.audio.release)
     exec .envelopeEvent s = .next
      (if 512 ≤ s.audio.blockCount then
        { s with audio := { s.audio with envelope := env, blockCount := s.audio.blockCount - 512, blockPeak := 0 },
                 link := s.link.choose }
      else s.passed [])) ∧
    (∀ i : Fin 4,
      let x := s.audio.streams.get i
      let fading := x.state = .stopping ∨ x.state = .paused ∧ x.pausedFrom = .stopping
      (fading → x.gain.duration ≤ x.gain.elapsedAt s.clock.plantTime →
        ∃ t, exec (.stopFadeEnd i) s = .next t ∧ (t.audio.streams.get i).state = .idle ∧
          (t.audio.streams.get i).ring = [] ∧ (t.audio.streams.get i).leftToPlay = x.leftToPlay ∧
          t.clock.position = s.clock.position ∧ t.configuration = s.configuration ∧
          (let freed : Stream := { x with state := .idle, ring := [], headPos := 0, boundary := false, silenceLeft := 0,
                                          silencePasses := false }
           let read := s.audio.read.map (fun r => if r.stream = i then { r with discarded := true } else r)
           t = ({ s with audio := { s.audio with streams := s.audio.streams.set i freed, read := read },
                         link := s.link.choose } : State).judgeNaturalEnd.transmit)) ∧
      (¬ fading ∨ x.gain.elapsedAt s.clock.plantTime < x.gain.duration →
        exec (.stopFadeEnd i) s = .next (s.passed []))) ∧
    (let ends := s.seq.state = .playing ∧ s.seq.cursor = s.seq.run.count ∧ s.seq.queue = [] ∧
       (s.audio.streams.get 0).state = .idle
     (ends → s.judgeNaturalEnd = s.beginEnding .natural) ∧ (¬ ends → s.judgeNaturalEnd = s))

/-- The completion of a refill read: one slot of 512 frames joins its stream's ring, the track's samples first and
then zeros; a discarded read fills nothing; with no read in progress nothing happens (log 1); a read beyond the flash
stops the model, which is the model's choice (R141, R144; log 37). The arbiter then chooses again; no other field of
any stream changes but the next address and the frames left to read of the stream it chooses. It chooses again too at
an output frame, which may free a slot, and when a flash operation gives the interface up (R144, R159): after each of
them no stream that qualifies is left with the interface free. The refill arbiter's choice: of the streams that are
not IDLE, have an empty slot and frames left to read, the one with the fewest filled slots, the lowest number between
equals; none while a read is in progress or a flash request holds the interface (R144), nor while a flash request only
waits for it, which is the model's reading (log 20). -/
def Obligations.RefillReads : Prop :=
  let chosen : State → Prop := fun t => t.audio.read = none → t.flash.op = none →
    ∀ i : Fin 4, ¬ ((t.audio.streams.get i).state ≠ .idle ∧
      (t.audio.streams.get i).ring.length < (t.audio.streams.get i).share ∧ 0 < (t.audio.streams.get i).leftToRead)
  (∀ s : State, s.phase = .running →
     let others : State → Prop := fun t =>
       t = { s with audio := { s.audio with read := t.audio.read, streams := t.audio.streams },
                    link := s.link.choose } ∧
       ∀ i : Fin 4,
         let y := t.audio.streams.get i
         y = { s.audio.streams.get i with ring := y.ring, nextAddress := y.nextAddress, leftToRead := y.leftToRead } ∧
         ((∀ q, t.audio.read = some q → q.stream ≠ i) → y = { s.audio.streams.get i with ring := y.ring })
     (s.audio.read = none → exec .refillReadComplete s = .next (s.passed [])) ∧
     (∀ r, s.audio.read = some r → r.discarded = false →
       1073741824 < r.address + r.frames * r.format.frameBytes →
       exec .refillReadComplete s = .fault .flashOutOfRange) ∧
     (∀ r, s.audio.read = some r → r.discarded = true → ∃ t, exec .refillReadComplete s = .next t ∧
       (∀ i : Fin 4, (t.audio.streams.get i).ring = (s.audio.streams.get i).ring) ∧
       (t.audio.read = none ∨ ∃ q, t.audio.read = some q ∧ q.discarded = false) ∧ t.flash = s.flash ∧
       t.configuration = s.configuration ∧ others t ∧ chosen t ∧
       t = ({ s with audio := { s.audio with read := none }, link := s.link.choose } : State).refill.transmit) ∧
     (∀ r, s.audio.read = some r → r.discarded = false →
       r.address + r.frames * r.format.frameBytes ≤ 1073741824 →
       ∃ t slot, exec .refillReadComplete s = .next t ∧ t.flash = s.flash ∧ t.configuration = s.configuration ∧
         (∀ i : Fin 4, (t.audio.streams.get i).ring =
           if i = r.stream then (s.audio.streams.get i).ring ++ [slot] else (s.audio.streams.get i).ring) ∧
         others t ∧ chosen t ∧
         (let filled : Stream → Stream := fun x => { x with ring := x.ring ++ [slot] }
          t = ({ s with
            audio := { s.audio with read := none, streams := s.audio.streams.modify r.stream filled },
            link := s.link.choose } : State).refill.transmit) ∧
         slot.length = 512 ∧
         let sample : Nat → Int := fun a =>
           (BitVec.ofNat 16 ((s.flash.byte a).toNat + 256 * (s.flash.byte (a + 1)).toNat)).toInt
         ∀ k, k < 512 → slot[k]? = some
           (if r.frames ≤ k then ⟨0, 0⟩
           else match r.format with
             | .stereo16 => ⟨sample (r.address + 4 * k), sample (r.address + 4 * k + 2)⟩
             | .mono16 => ⟨sample (r.address + 2 * k), sample (r.address + 2 * k)⟩))) ∧
  (∀ s : State, s.phase = .running →
     (∃ t, exec .outputFrame s = .next t ∧ chosen t ∧
       ∃ u : State, u.flash = s.flash ∧ u.seq = s.seq ∧ u.clock = s.clock ∧ u.trip = s.trip ∧
         (u.audio.read = s.audio.read ∨
           ∃ r, s.audio.read = some r ∧ u.audio.read = some { r with discarded := true }) ∧
         t = u.refill.judgeNaturalEnd.transmit) ∧
     (∀ (o : FlashOp) (c : Instr) (t : State), s.flash.op = some o →
       (∃ ok, c = .flashOperationDone ok) ∨ c = .flashTimeout → exec c s = .next t → t.flash.op = none →
       chosen t ∧ ∃ u : State, u.flash = t.flash ∧ u.audio = s.audio ∧ u.seq = s.seq ∧ u.clock = s.clock ∧
         t = u.refill.transmit)) ∧
  (∀ s : State,
     (s.audio.read.isSome ∨ s.flash.op.isSome → s.refill = s) ∧
     (s.audio.read = none → s.flash.op = none →
       let ready : Fin 4 → Prop := fun i => (s.audio.streams.get i).state ≠ .idle ∧
         (s.audio.streams.get i).ring.length < (s.audio.streams.get i).share ∧ 0 < (s.audio.streams.get i).leftToRead
       ((∀ i, ¬ ready i) → s.refill = s) ∧
       (∀ i, ready i →
         (∀ j, ready j → (s.audio.streams.get i).ring.length < (s.audio.streams.get j).ring.length ∨
           (s.audio.streams.get i).ring.length = (s.audio.streams.get j).ring.length ∧ i.val ≤ j.val) →
         let x := s.audio.streams.get i
         let read : RefillRead := { stream := i, address := x.nextAddress, frames := min 512 x.leftToRead,
                                    format := x.format, discarded := false }
         let y : Stream := { x with nextAddress := x.nextAddress + 512 * x.format.frameBytes,
                                    leftToRead := x.leftToRead - 512 }
         s.refill = { s with audio := { s.audio with read := some read, streams := s.audio.streams.set i y } })))

/-- FLASH_ERASE, FLASH_WRITE, FLASH_READ and SAVE_IMAGE: their checks in order; while a stream is not IDLE the first
three are refused with BUSY, which is discarded when 3 or more replies wait (R159, R194); a taken one sets the outstanding
flag and holds the flash interface, at once when no refill read is in progress; the reply comes at completion; the stored
image is no longer valid once a save holds the interface (R159, R187, R198; log 8). -/
def Obligations.FlashRequestsBegin : Prop :=
  ∀ (s : State) (tag : Byte) (a : Quad), s.Ready →
    let quiet := ∀ t ∈ s.audio.streams.cells, t.state = .idle
    let opOf : FlashJob → FlashOp := fun job =>
      { tag := tag, job := job, holding := s.audio.read.isNone, started := s.clock.plantTime }
    let begun : FlashJob → State := fun job =>
      ({ s with flash := { s.flash with op := some (opOf job) } }).outstandingNow
    let busy : Byte → State := fun kind =>
      if 3 ≤ s.link.choose.replies.length then { s with link := { s.link.choose with rx := .hunting } }
      else s.replied kind tag .busy []
    (¬ quiet → exec (.flashErase tag a) s = .next (busy 0x44#8) ∧
      (∀ data, data.length = 256 → exec (.flashWrite tag a data) s = .next (busy 0x45#8)) ∧
      ∀ n, exec (.flashRead tag a n) s = .next (busy 0x46#8)) ∧
    (quiet →
      (a.toNat % 4096 = 0 → 1048576 ≤ a.toNat → a.toNat + 4096 ≤ 1073741824 →
        exec (.flashErase tag a) s = .next (begun (.erase a.toNat))) ∧
      (a.toNat % 4096 ≠ 0 ∨ a.toNat < 1048576 ∨ 1073741824 < a.toNat + 4096 →
        exec (.flashErase tag a) s = .next (s.replied 0x44#8 tag .badArgument [])) ∧
      (∀ data, data.length = 256 → a.toNat % 256 = 0 → 1048576 ≤ a.toNat → a.toNat + 256 ≤ 1073741824 →
        exec (.flashWrite tag a data) s = .next (begun (.write a.toNat data))) ∧
      (∀ data, data.length = 256 → (a.toNat % 256 ≠ 0 ∨ a.toNat < 1048576 ∨ 1073741824 < a.toNat + 256) →
        exec (.flashWrite tag a data) s = .next (s.replied 0x45#8 tag .badArgument [])) ∧
      (∀ n : Half, 1 ≤ n.toNat → n.toNat ≤ 512 → a.toNat + n.toNat ≤ 1073741824 →
        exec (.flashRead tag a n) s = .next (begun (.read a.toNat n.toNat))) ∧
      (∀ n : Half, n.toNat = 0 ∨ 512 < n.toNat ∨ 1073741824 < a.toNat + n.toNat →
        exec (.flashRead tag a n) s = .next (s.replied 0x46#8 tag .badArgument []))) ∧
    (s.out.mode = .live → exec (.saveImage tag) s = .next (s.replied 0x03#8 tag .notSafe [])) ∧
    (s.out.mode = .safe → exec (.saveImage tag) s = .next
      (if s.audio.read.isNone then
        ({ s with flash := { s.flash with
            op := some (opOf (.save s.configuration (.erasing 0))), image := none,
            saves := s.flash.saves + 1 } }).outstandingNow
      else begun (.save s.configuration (.erasing 0))))

/-- The completion of an erase, a write and a read: an erased byte reads 0xFF, a written byte ends as the AND of old
and new, every other byte stands, the interface is released and the reply made; a failure or an exceeded time replies
FLASH_ERROR and leaves every byte outside the operation's range as it was (R159; log 9). The bytes read stand in the
reply without a count, which is the model's choice (log 40). A report or a time-out while the operation only waits, and a
time-out before its time, do nothing (log 1). -/
def Obligations.FlashCompletes : Prop :=
  ∀ (s : State) (o : FlashOp), s.phase = .running → s.flash.op = some o → s.FlashCanonical →
    let done : Status → List Byte → State → Prop := fun status fields t =>
      t.flash.op = none ∧ t.flash.image = s.flash.image ∧ t.flash.saves = s.flash.saves ∧
      t.configuration = s.configuration ∧ t.clock = s.clock ∧
      t.link = s.link.completed o.job.kind o.tag status fields
    (o.holding = false → ∀ ok, exec (.flashOperationDone ok) s = .next (s.passed []) ∧
      exec .flashTimeout s = .next (s.passed [])) ∧
    (∀ a, o.holding = true → o.job = .erase a → 1048576 ≤ a →
      (∃ t, exec (.flashOperationDone true) s = .next t ∧ done .ok [] t ∧
        ∀ b, t.flash.byte b = if a ≤ b ∧ b < a + 4096 then 0xFF#8 else s.flash.byte b) ∧
      (∃ t, exec (.flashOperationDone false) s = .next t ∧ done .flashError [] t ∧
        ∀ b, ¬ (a ≤ b ∧ b < a + 4096) → t.flash.byte b = s.flash.byte b) ∧
      (1000 ≤ elapsed o.started s.clock.plantTime →
        exec .flashTimeout s = exec (.flashOperationDone false) s) ∧
      (elapsed o.started s.clock.plantTime < 1000 → exec .flashTimeout s = .next (s.passed []))) ∧
    (∀ a data, o.holding = true → o.job = .write a data → 1048576 ≤ a →
      (∃ t, exec (.flashOperationDone true) s = .next t ∧ done .ok [] t ∧
        (∀ k (h : k < data.length), t.flash.byte (a + k) = s.flash.byte (a + k) &&& data[k]) ∧
        ∀ b, ¬ (a ≤ b ∧ b < a + data.length) → t.flash.byte b = s.flash.byte b) ∧
      (∃ t, exec (.flashOperationDone false) s = .next t ∧ done .flashError [] t ∧
        ∀ b, ¬ (a ≤ b ∧ b < a + data.length) → t.flash.byte b = s.flash.byte b) ∧
      (10 ≤ elapsed o.started s.clock.plantTime →
        exec .flashTimeout s = exec (.flashOperationDone false) s) ∧
      (elapsed o.started s.clock.plantTime < 10 → exec .flashTimeout s = .next (s.passed []))) ∧
    (∀ a n, o.holding = true → o.job = .read a n →
      ∃ t, exec (.flashOperationDone true) s = .next t ∧
        done .ok ((List.range n).map (fun k => s.flash.byte (a + k))) t ∧ t.flash.mem = s.flash.mem)

/-- A waiting operation takes the interface once no refill read is in progress, and a save then invalidates the stored
image (log 8). The steps of a save follow one another, one erase for each sector that the image occupies and one write for
each page: a done erase leaves 0xFF in its sector and every other byte as before, a done write the old bytes of its page
combined with the image's and every other byte as before (R159, R198; the page's bytes past the image: log 8). The
read-back stores the configuration the save began with and replies OK. A step that fails, or an erase or a write that
exceeds its time, replies FLASH_ERROR, stores nothing and leaves every byte outside its sector or page, or outside the
image whose read-back differs, as before (R159, R197, R198; log 9). An interface hold or a time-out that is not due does
nothing (log 1). -/
def Obligations.SaveStoresTheConfiguration : Prop :=
  ∀ (s : State) (o : FlashOp), s.phase = .running → s.flash.op = some o →
    (o.holding = true ∨ s.audio.read.isSome = true → exec .flashInterfaceHold s = .next (s.passed [])) ∧
    (o.holding = false → s.audio.read = none → ∃ t, exec .flashInterfaceHold s = .next t ∧
      t.flash.op = some { o with holding := true, started := s.clock.plantTime } ∧ t.flash.mem = s.flash.mem ∧
      (∀ i phase, o.job = .save i phase → t.flash.image = none ∧ t.flash.saves = s.flash.saves + 1) ∧
      t = { s with flash := t.flash, link := s.link.choose }) ∧
    (∀ i phase, o.holding = true → o.job = .save i phase →
      let image := imageBytes s.flash.saves
      (phase ≠ .reading → ∃ t p, exec (.flashOperationDone true) s = .next t ∧
        t = { s with flash := { s.flash with mem := t.flash.mem,
                                             op := some { o with job := .save i p, started := s.clock.plantTime } },
                     link := s.link.choose } ∧
        (∀ k, phase = .erasing k →
          p = (if 4096 * (k + 1) < image.length then .erasing (k + 1) else .writing 0) ∧
          ∀ a, t.flash.byte a = if 4096 * k ≤ a ∧ a < 4096 * (k + 1) then 0xFF#8 else s.flash.byte a) ∧
        (∀ k, phase = .writing k →
          p = (if 256 * (k + 1) < image.length then .writing (k + 1) else .reading) ∧
          (s.FlashCanonical →
            (∀ a, a < 256 * k ∨ 256 * (k + 1) ≤ a → t.flash.byte a = s.flash.byte a) ∧
            ∀ a b, 256 * k ≤ a → a < 256 * (k + 1) → image[a]? = some b →
              t.flash.byte a = s.flash.byte a &&& b))) ∧
      (phase = .reading → ∃ t, exec (.flashOperationDone true) s = .next t ∧ t.flash.image = some i ∧
        t.flash.op = none ∧ t.flash.mem = s.flash.mem ∧ t.link = s.link.completed 0x03#8 o.tag .ok []) ∧
      (∃ t, exec (.flashOperationDone false) s = .next t ∧ t.flash.op = none ∧ t.flash.image = s.flash.image ∧
        t.link = s.link.completed 0x03#8 o.tag .flashError [] ∧
        (s.FlashCanonical → ∀ a,
          (∀ k, phase = .erasing k → a < 4096 * k ∨ 4096 * (k + 1) ≤ a) →
          (∀ k, phase = .writing k → a < 256 * k ∨ 256 * (k + 1) ≤ a) →
          (phase = .reading → image.length ≤ a / 256 * 256) → t.flash.byte a = s.flash.byte a)) ∧
      (∀ k, phase = .erasing k → 1000 ≤ elapsed o.started s.clock.plantTime →
        exec .flashTimeout s = exec (.flashOperationDone false) s) ∧
      (∀ k, phase = .writing k → 10 ≤ elapsed o.started s.clock.plantTime →
        exec .flashTimeout s = exec (.flashOperationDone false) s) ∧
      ((∀ k, phase = .erasing k → elapsed o.started s.clock.plantTime < 1000) →
        (∀ k, phase = .writing k → elapsed o.started s.clock.plantTime < 10) →
        exec .flashTimeout s = .next (s.passed [])))

/-! ### Field inputs, trips and reactions -/

/-- The input sample event records every line and counts each condition's prescale; a condition sample that is due is
judged by the filter, and with no reaction in use a GENERAL condition changes nothing else; one that is not due does
nothing (R160, R162, R163; log 25). The order of the frames that one event makes: log 14. -/
def Obligations.InputEvents : Prop :=
  ∀ s : State, s.phase = .running →
    (∀ lines, ∃ t, exec (.inputSample lines) s = .next t ∧
      t = { s with trip := { s.trip with samples := lines, conditions := t.trip.conditions }, link := s.link.choose } ∧
      ∀ c : Fin 24, t.trip.conditions.get c =
        let x := s.trip.conditions.get c
        if x.prescaleCount = x.cfg.prescale then { x with prescaleCount := 0, due := true }
        else { x with prescaleCount := x.prescaleCount + 1 }) ∧
    (∀ c : Fin 24,
      let x := s.trip.conditions.get c
      let sample := xor (match x.cfg.source with
        | .line i => s.trip.samples.getLsbD i.val
        | .constLow => false
        | .constHigh => true) x.cfg.invert
      let history := if x.cfg.window = 0 then x.history else sample :: x.history.dropLast
      let filtered := if x.cfg.window = 0 then sample
        else if x.cfg.threshold ≤ (history.filter (· ≠ x.filtered)).length then !x.filtered else x.filtered
      let y : Condition := { x with history := history, filtered := filtered, due := false }
      (x.due = false → exec (.conditionSample c) s = .next (s.passed [])) ∧
      (x.due = true → ∃ t, exec (.conditionSample c) s = .next t ∧ t.trip.conditions.get c = y ∧
        (∀ d : Fin 24, d ≠ c → t.trip.conditions.get d = s.trip.conditions.get d) ∧
        t.trip.samples = s.trip.samples ∧ t.configuration = s.configuration ∧ t.flash = s.flash ∧
        (s.NoReactions →
          let u : State := { s with trip := { s.trip with conditions := s.trip.conditions.set c y } }
          (x.cfg.role = .general ∨ ¬ (x.filtered = false ∧ filtered = true) → t = u.passed []) ∧
          (x.cfg.role = .windPulse → x.filtered = false → filtered = true →
            t = ({ u with wind := { u.wind with gateCount := min 65535 (u.wind.gateCount + 1) } }).passed []) ∧
          (x.cfg.role = .clockStep → x.filtered = false → filtered = true →
            t = ({ u with link := u.link.choose }).stepEvent.transmit) ∧
          (x.cfg.role = .clockMark → x.filtered = false → filtered = true →
            t = ({ u with link := u.link.choose }).markEvent.transmit))))

/-- Every condition sample serves the reactions on its condition: the latch of an edge trigger is set by a matching
transition and never cleared by one, and an activated PLANT_SAFE or SHOW_ABORT reaction has its effect whatever the
order (R163, R167, R171, R178). The source levels: a condition's filtered level, the band against b, a FAULTED pump,
every configured pump lost, HOLDOVER (R165); HIGH and LOW are active by level, an edge trigger by its latch. What one
reaction in use does at a transition of its source, and that it does nothing else (R166, R167, R171, R174): no
activation leaves only the latch; an activation makes the TRIP notice, and the effect of its kind: FLAG_SET sets Fn,
SHOW_PAUSE pauses PREROLL and PLAYING, SHOW_ABORT aborts any run, PLANT_SAFE enters SAFE from LIVE; the other kinds
have no effect then. The owners hand their changes on: a condition's sample, the third miss of a pump, a band change
and the holdover (R163, R165; before the owner's next matter, and after the ceiling where a holdover's catch-up
reaches it: log 13; the order of several reactions: log 10). The order of the frames that one event makes: log 14. -/
def Obligations.ReactionsTakeTheirEffects : Prop :=
  (∀ (s : State) (c : Fin 24), s.phase = .running → (s.trip.conditions.get c).due = true →
    ∃ t, exec (.conditionSample c) s = .next t ∧
      let before := (s.trip.conditions.get c).filtered
      let after := (t.trip.conditions.get c).filtered
      ∀ i : Fin 32,
        let r := s.trip.reactions.get i
        r.cfg.source = .condition c → r.cfg.inUse = true →
        let matched := r.cfg.trigger = .rise ∧ before = false ∧ after = true ∨
          r.cfg.trigger = .fall ∧ before = true ∧ after = false ∨ r.cfg.trigger = .any ∧ before ≠ after
        let activated := matched ∧ r.latch = false ∨ r.cfg.trigger = .high ∧ before = false ∧ after = true ∨
          r.cfg.trigger = .low ∧ before = true ∧ after = false
        (t.trip.reactions.get i).cfg = r.cfg ∧
        ((t.trip.reactions.get i).latch = true ↔ r.latch = true ∨ matched) ∧
        (activated → r.cfg.kind = .plantSafe → s.out.mode = .live →
          t.out.mode = .safe ∧ t.seq.state = .idle ∧
            ∀ p : Fin 8, (t.water.pumps.get p).live.target = 0 ∧ (t.water.pumps.get p).live.commanded = 0) ∧
        (activated → r.cfg.kind = .showAbort → t.seq.state = .idle)) ∧
  (∀ s : State,
    (∀ c : Fin 24, s.sourceLevel (.condition c) = (s.trip.conditions.get c).filtered) ∧
    (∀ b, s.sourceLevel (.bandAtLeast b) = true ↔ b ≤ s.wind.band) ∧
    (s.sourceLevel .anyPumpFaulted = true ↔ ∃ p : Fin 8, (s.water.pumps.get p).live.state = .faulted) ∧
    (s.sourceLevel .driveLinkLost = true ↔
      (∃ p : Fin 8, (s.water.pumps.get p).cfg.address ≠ 0) ∧
        ∀ p : Fin 8, (s.water.pumps.get p).cfg.address ≠ 0 →
          (s.water.pumps.get p).live.state = .faulted ∧ (s.water.pumps.get p).live.fault = some .linkLost) ∧
    (s.sourceLevel .clockHoldover = true ↔ s.clock.state = .holdover) ∧
    (∀ r : Reaction, s.isActive r = true ↔ r.cfg.inUse = true ∧
      match r.cfg.trigger with
      | .high => s.sourceLevel r.cfg.source = true
      | .low => s.sourceLevel r.cfg.source = false
      | _ => r.latch = true)) ∧
  (∀ (before s : State) (i : Fin 32) (latch : Bool),
    (∀ j : Fin 32, j ≠ i → (s.trip.reactions.get j).cfg.inUse = false) →
    let r := s.trip.reactions.get i
    let b := before.sourceLevel r.cfg.source
    let a := s.sourceLevel r.cfg.source
    let matched := r.cfg.trigger = .rise ∧ b = false ∧ a = true ∨ r.cfg.trigger = .fall ∧ b = true ∧ a = false ∨
      r.cfg.trigger = .any ∧ b ≠ a
    let activated := matched ∧ r.latch = false ∨ r.cfg.trigger = .high ∧ b = false ∧ a = true ∨
      r.cfg.trigger = .low ∧ b = true ∧ a = false
    r.cfg.inUse = true → (latch = true ↔ r.latch = true ∨ matched) →
    let t := s.reactFrom before
    let reactions := s.trip.reactions.set i { r with latch := latch }
    let marked : State := { s with trip := { s.trip with reactions := reactions } }
    let notice : Notice := .trip i.val r.cfg.kind r.cfg.source r.cfg.trigger a s.clock.plantTime s.clock.position
    let told : State := { marked with link := s.link.tell notice }
    (¬ activated → t = marked) ∧
    (activated →
      ((∀ n, r.cfg.kind ≠ .flagSet n) → r.cfg.kind ≠ .showPause → r.cfg.kind ≠ .showAbort → r.cfg.kind ≠ .plantSafe →
        t = told) ∧
      (∀ n, r.cfg.kind = .flagSet n →
        t = { told with seq := { s.seq with flags := s.seq.flags ||| (1#16 <<< n.val) } }) ∧
      (r.cfg.kind = .showPause →
        (∀ p : PausedFrom, s.seq.state = p.back →
          let paused : Notice := .run .state s.seq.running p.back .paused s.seq.endReason s.clock.position 0
          t = { told with
            seq := { s.seq with state := .paused, pausedFrom := p },
            clock := { s.clock with armed := none },
            audio := { s.audio with streams := s.audio.streams.map Stream.pause },
            link := told.link.tell paused }) ∧
        (s.seq.state ≠ .preroll → s.seq.state ≠ .playing → t = told)) ∧
      (r.cfg.kind = .showAbort →
        (s.seq.state = .idle → t = told) ∧
        (s.seq.state ≠ .idle → t.seq.state = .idle ∧ t.AtRest ∧ t.seq.endReason = .abortReaction)) ∧
      (r.cfg.kind = .plantSafe →
        (s.out.mode = .safe → t = told) ∧
        (s.out.mode = .live →
          t.out.mode = .safe ∧ t.seq.state = .idle ∧ (s.seq.state ≠ .idle → t.AtRest ∧ t.seq.endReason = .safe) ∧
            ∀ p : Fin 8, (t.water.pumps.get p).live.target = 0 ∧ (t.water.pumps.get p).live.commanded = 0)))) ∧
  (∀ s : State, s.phase = .running →
    let w : State := { s with link := s.link.choose }
    (∀ c : Fin 24,
      let x := s.trip.conditions.get c
      x.due = true → x.cfg.role = .general →
      let y : Condition := { x.filter (x.cfg.sample s.trip.samples) with due := false }
      let after : State := { w with trip := { s.trip with conditions := s.trip.conditions.set c y } }
      exec (.conditionSample c) s = .next (after.reactFrom w).transmit) ∧
    (∀ p : Fin 8,
      let x := s.water.pumps.get p
      s.water.poll.awaiting = some p → 2 ≤ x.live.misses → x.live.state ≠ .faulted → x.live.state ≠ .locked →
      let missed : Pump := { x with live := { x.live with
        misses := min 255 (x.live.misses + 1), exchange := .miss } }
      let before : State := { w with water := { s.water with
        pumps := s.water.pumps.set p missed, poll := { s.water.poll with awaiting := none } } }
      let lost : Pump := { missed with live := { missed.live with
        state := .faulted, fault := some .linkLost, target := 0, commanded := 0 } }
      let notice : Notice := .pump p.val .linkLost x.live.state x.live.actual s.clock.plantTime
      let after : State := { before with
        water := { before.water with pumps := s.water.pumps.set p lost }, link := w.link.tell notice }
      exec .pollMiss s = .next (after.reactFrom before).transmit) ∧
    (∀ a, s.clock.state = .locked → s.clock.armed = some a → s.clock.stepTimeout ≤ elapsed a s.clock.plantTime →
      let h := w.holdOver
      let ceiling := s.seq.state = .playing ∧ 2000000000 ≤ s.clock.position + s.clock.stepTimeout
      (¬ ceiling → exec .stepTimeout s = .next ((h.reactFrom w).newPosition).transmit) ∧
      (ceiling → exec .stepTimeout s = .next ((h.judgeStarts.meetCeiling.reactFrom w).judgeEnd).transmit)) ∧
    (∀ (cause : WindCause) (b : Nat),
      let notice : Notice := .wind cause s.wind.band b s.wind.lastAverage s.clock.plantTime
      let changed : State := { s with
        wind := { s.wind with
          band := b, bandChanges := min 65535 (s.wind.bandChanges + 1),
          zones := Table.zipWith (fun (c : ZoneCfg) (z : ZoneTrim) =>
            { z with target := c.factors.getD b 256, sourceBand := b }) s.wind.cfg.zones s.wind.zones },
        link := s.link.tell notice }
      s.changeBand cause b = changed.reactFrom s))

/-- INPUT_CONFIG: the checks in order; when it is taken every condition named holds its new fields, seeded with one
sample of its new source, and the others stand (R161, R164); the Wind Governor then takes the change of mode, if the
roles make one: to AUTOMATIC a new gate and an empty history, to MANUAL the manual band and a gate that runs on with
count 0 (R117), a change of band with its WIND notice; the reply is OK. An invert byte of 2 or more is refused (log
28); an argument byte that the form does not have is not read (log 41); a rising seed's pulse comes before the change
of mode (log 30). REACTION_CONFIG and TRIP_CLEAR: their checks in order; the first replaces a reaction's fields and
sets its latch afresh from its source's level, without an activation; the second clears the latch (R165, R168, R169,
R170). The order of the reply and the notices of one event: log 14. -/
def Obligations.InputAndTripRequests : Prop :=
  (∀ (s : State) (tag : Byte), s.Ready →
     let payloadOf : List SettingArgs → List Byte := fun as => as.flatMap
       (fun a => [a.condition, a.source, a.sourceArg, a.invert, a.prescale, a.window, a.threshold, a.role])
     (∀ p, s.out.mode = .live → exec (.inputConfig tag p) s = .next (s.replied 0x48#8 tag .notSafe [])) ∧
     (∀ p : List Byte, s.out.mode = .safe → p.length % 8 ≠ 0 ∨ p.length < 8 ∨ 192 < p.length →
       exec (.inputConfig tag p) s = .next (s.replied 0x48#8 tag .badLength [])) ∧
     (∀ as : List SettingArgs, s.out.mode = .safe → 1 ≤ as.length → as.length ≤ 24 →
       (∃ a ∈ as, 24 ≤ a.condition.toNat ∨ conditionCfgOf a = none) ∨ ¬ (as.map (·.condition)).Nodup →
       exec (.inputConfig tag (payloadOf as)) s = .next (s.replied 0x48#8 tag .badArgument [])) ∧
     (∀ (as : List SettingArgs) (xs : List (Fin 24 × ConditionCfg)), s.out.mode = .safe → 1 ≤ as.length →
       as.map (fun a => (a.condition.toNat, conditionCfgOf a)) = xs.map (fun x => (x.1.val, some x.2)) →
       (xs.map (·.1)).Nodup →
       let fields : Fin 24 → ConditionCfg := fun c =>
         ((xs.find? (fun x => x.1 == c)).map (·.2)).getD (s.trip.conditions.get c).cfg
       let clashes : Fin 24 → Prop := fun c => (fields c).role ≠ .general ∧ ∃ d, d ≠ c ∧ (fields d).role = (fields c).role
       (∀ (front back : List (Fin 24 × ConditionCfg)) (x : Fin 24 × ConditionCfg), xs = front ++ x :: back →
         clashes x.1 → (∀ y ∈ back, ¬ clashes y.1) →
         exec (.inputConfig tag (payloadOf as)) s = .next (s.replied 0x48#8 tag .roleTaken (le 1 x.1.val))) ∧
       ((∀ x ∈ xs, ¬ clashes x.1) →
         ∃ t, exec (.inputConfig tag (payloadOf as)) s = .next t ∧ t.out.mode = .safe ∧ t.flash = s.flash ∧
           t.trip.samples = s.trip.samples ∧
           (∀ c : Fin 24, t.trip.conditions.get c =
             if c ∈ xs.map (·.1) then
               { cfg := fields c, prescaleCount := 0, due := false,
                 history := List.replicate (fields c).window ((fields c).sample s.trip.samples),
                 filtered := (fields c).sample s.trip.samples }
             else s.trip.conditions.get c) ∧
           (let was : Prop := ∃ c, (s.trip.conditions.get c).cfg.role = .windPulse
            let now : Prop := ∃ c, (fields c).role = .windPulse
            let m := s.wind.manualBand
            (was → ¬ now → m = s.wind.band → t.wind = { s.wind with calm := 0, gateCount := 0 }) ∧
            (was → ¬ now → m ≠ s.wind.band →
              t.wind = { s.wind with calm := 0, gateCount := 0, band := m,
                                     bandChanges := min 65535 (s.wind.bandChanges + 1), zones := t.wind.zones } ∧
              ∀ z : Fin 4, t.wind.zones.get z = { s.wind.zones.get z with
                target := (s.wind.cfg.zones.get z).factors.getD m 256, sourceBand := m }) ∧
            (¬ was → now → t.wind = { s.wind with
              calm := 0, gateCount := 0, gateStart := s.clock.plantTime, history := ⟨0, 0, 0⟩ }) ∧
            (let rose : Prop := ∃ x ∈ xs, x.2.role = .windPulse ∧ (s.trip.conditions.get x.1).filtered = false ∧
               x.2.sample s.trip.samples = true
             (was → now → rose → t.wind = { s.wind with gateCount := min 65535 (s.wind.gateCount + 1) }) ∧
             (was → now → ¬ rose → t.wind = s.wind)) ∧
            (¬ was → ¬ now → t.wind = s.wind) ∧
            (s.NoReactions → s.seq.state = .idle →
              (was → ¬ now → m ≠ s.wind.band → t.link = s.link.answered
                [.wind .mode s.wind.band m s.wind.lastAverage s.clock.plantTime] 0x48#8 tag .ok []) ∧
              (¬ was ∨ now ∨ m = s.wind.band → t.link = s.link.answered [] 0x48#8 tag .ok []))))) ∧
     (∀ a : SettingArgs, conditionCfgOf a =
       match lineSourceOf a.source a.sourceArg, roleOf a.role with
       | some source, some role =>
         if a.invert.toNat ≤ 1 ∧ a.window.toNat ≤ 63 ∧
             (a.window.toNat = 0 ∨ 1 ≤ a.threshold.toNat ∧ a.threshold.toNat ≤ a.window.toNat) then
           some { source := source, invert := decide (a.invert = 1#8), prescale := a.prescale.toNat,
                  window := a.window.toNat, threshold := a.threshold.toNat, role := role }
         else none
       | _, _ => none)) ∧
  ((∀ (s : State) (tag : Byte) (a : ReactionArgs), s.Ready →
     (s.out.mode = .live → exec (.reactionConfig tag a) s = .next (s.replied 0x49#8 tag .notSafe [])) ∧
     (s.out.mode = .safe → 32 ≤ a.reaction.toNat ∨ reactionCfgOf a = none →
       exec (.reactionConfig tag a) s = .next (s.replied 0x49#8 tag .badArgument [])) ∧
     (∀ (i : Fin 32) (cfg : ReactionCfg), s.out.mode = .safe → a.reaction.toNat = i.val → reactionCfgOf a = some cfg →
       let r := s.trip.reactions.get i
       let level := s.sourceLevel r.cfg.source
       let held := r.cfg.release = .hostWhenInactive ∧ r.latch = true ∧
         (r.cfg.trigger = .rise ∧ level = true ∨ r.cfg.trigger = .fall ∧ level = false)
       (held → exec (.reactionConfig tag a) s = .next (s.replied 0x49#8 tag .sourceActive [])) ∧
       (¬ held →
         let new := s.sourceLevel cfg.source
         let latch := cfg.inUse && match cfg.trigger with
           | .rise => new
           | .fall => !new
           | _ => false
         let active := cfg.inUse && match cfg.trigger with
           | .high => new
           | .low => !new
           | _ => latch
         exec (.reactionConfig tag a) s = .next
           (({ s with trip := { s.trip with
               reactions := s.trip.reactions.set i { cfg := cfg, latch := latch } } }).replied 0x49#8 tag .ok
             (le 1 active.toNat))))) ∧
   (∀ a : ReactionArgs, reactionCfgOf a =
     match reactionSourceOf a.source a.sourceArg, triggerOf a.trigger, releaseOf a.release,
       reactionKindOf a.kind a.arg1 a.arg2 with
     | some source, some trigger, some release, some kind =>
       if a.use.toNat ≤ 1 ∧ ¬ (trigger = .any ∧ release = .hostWhenInactive) then
         some { inUse := decide (a.use = 0#8), source := source, trigger := trigger, release := release, kind := kind }
       else none
     | _, _, _, _ => none) ∧
   (∀ (s : State) (tag n : Byte), s.Ready →
     (32 ≤ n.toNat → exec (.tripClear tag n) s = .next (s.replied 0x4A#8 tag .badArgument [])) ∧
     (∀ i : Fin 32, n.toNat = i.val →
       let r := s.trip.reactions.get i
       let level := s.sourceLevel r.cfg.source
       let edge := r.cfg.trigger = .rise ∨ r.cfg.trigger = .fall ∨ r.cfg.trigger = .any
       let held := r.cfg.release = .hostWhenInactive ∧ r.latch = true ∧
         (r.cfg.trigger = .rise ∧ level = true ∨ r.cfg.trigger = .fall ∧ level = false)
       (r.cfg.inUse = false ∨ ¬ edge → exec (.tripClear tag n) s = .next (s.replied 0x4A#8 tag .badState [])) ∧
       (r.cfg.inUse = true → edge → held →
         exec (.tripClear tag n) s = .next (s.replied 0x4A#8 tag .sourceActive [])) ∧
       (r.cfg.inUse = true → edge → ¬ held →
         exec (.tripClear tag n) s = .next
           (({ s with trip := { s.trip with
               reactions := s.trip.reactions.set i { cfg := r.cfg, latch := false } } }).replied 0x4A#8 tag .ok
             [0#8, if level then 1#8 else 0#8])))))

/-! ### Plant mode and output lines -/

/-- SET_PLANT: an unknown code is BAD_ARGUMENT; LIVE is refused while a PLANT_SAFE reaction is active; the mode
already in force changes nothing; LIVE sets the mode alone; the entry to SAFE ends the run, with the SHOW notice of
its end, and zeroes every pump; every reply that is OK carries the mode after the request (R64, R177, R178, R179). The
order of the reply and the notices of one event: log 14. -/
def Obligations.SetPlantRequest : Prop :=
  ∀ (s : State) (tag code : Byte), s.Ready →
    (2 ≤ code.toNat → exec (.setPlant tag code) s = .next (s.replied 0x50#8 tag .badArgument [])) ∧
    (let held := ∃ r ∈ s.trip.reactions.cells, s.isActive r = true ∧ r.cfg.kind = .plantSafe
     (held → exec (.setPlant tag 1#8) s = .next (s.replied 0x50#8 tag .tripLatched [])) ∧
     (¬ held → s.out.mode = .live → exec (.setPlant tag 1#8) s = .next (s.replied 0x50#8 tag .ok [1#8])) ∧
     (¬ held → s.out.mode = .safe → exec (.setPlant tag 1#8) s = .next
       (({ s with out := { s.out with mode := .live } }).replied 0x50#8 tag .ok [1#8]))) ∧
    (s.out.mode = .safe → exec (.setPlant tag 0#8) s = .next (s.replied 0x50#8 tag .ok [0#8])) ∧
    (s.out.mode = .live → ∃ t, exec (.setPlant tag 0#8) s = .next t ∧ t.out.mode = .safe ∧ t.seq.state = .idle ∧
      t.configuration = s.configuration ∧ t.out.host = s.out.host ∧ t.clock.position = s.clock.position ∧
      (∀ p : Fin 8, (t.water.pumps.get p).live.target = 0 ∧ (t.water.pumps.get p).live.commanded = 0) ∧
      (∀ (i : Nat) (cfg : OutputCfg), t.shown i cfg = if cfg.safeLevel then .high else .low) ∧
      (s.seq.state ≠ .idle → t.AtRest ∧ t.seq.endReason = .safe ∧
        ∀ c : Fin 48, (t.jets.channels.get c).live.abortClose = true ∧ (t.jets.channels.get c).live.fade.target = 0) ∧
      (s.seq.state = .idle → t.jets = s.jets ∧ t.light = s.light ∧ t.audio = s.audio ∧ t.seq = s.seq ∧
        t.clock = s.clock ∧ t.link = s.link.answered [] 0x50#8 tag .ok [0#8]) ∧
      (s.NoReactions → s.seq.state ≠ .idle → t.link = s.link.answered
        [.run .state s.seq.running s.seq.state .idle .safe s.clock.position 0] 0x50#8 tag .ok [0#8]))

/-- OUTPUT_CONFIG, OUTPUTS_SET, OUTPUTS_CLEAR and the start of a PWM period: their checks in order, and their effects;
nothing else changes (R181, R183, R184). An invert or a safe level byte of 2 or more is refused (log 28), and an
argument byte that the source does not have is not read (log 41). What an output line shows: its safe level in SAFE,
its source's level in LIVE, inverted where it says so, a CHANNEL_OPENING line the duty taken up at the last period
start, or its safe level, as a duty of 0 or 1000, before the first period in LIVE; an entry to SAFE ends the period
under way; LOW while a reset runs (R182, R183; log 22). TRIP_ANY is HIGH while a reaction other than NOTICE_ONLY is
active (R182). -/
def Obligations.OutputRequestsAndLines : Prop :=
  ((∀ a : OutputArgs, outputCfgOf a =
     match outputSourceOf a.source a.sourceArg with
     | some source =>
       if a.invert.toNat ≤ 1 ∧ a.safe.toNat ≤ 1 then
         some { source := source, invert := decide (a.invert = 1#8), safeLevel := decide (a.safe = 1#8) }
       else none
     | none => none) ∧
   (∀ (s : State) (tag : Byte) (a : OutputArgs), s.Ready →
     (s.out.mode = .live → exec (.outputConfig tag a) s = .next (s.replied 0x51#8 tag .notSafe [])) ∧
     (s.out.mode = .safe → 64 ≤ a.line.toNat ∨ outputCfgOf a = none →
       exec (.outputConfig tag a) s = .next (s.replied 0x51#8 tag .badArgument [])) ∧
     (∀ (i : Fin 64) (cfg : OutputCfg), s.out.mode = .safe → a.line.toNat = i.val → outputCfgOf a = some cfg →
       exec (.outputConfig tag a) s = .next
         (({ s with out := { s.out with lines := s.out.lines.set i cfg } }).replied 0x51#8 tag .ok []))) ∧
   (∀ (s : State) (tag : Byte) (mask : BitVec 64), s.Ready →
     (∃ t, exec (.outputsSet tag mask) s = .next t ∧
       (∀ i : Fin 64, t.out.host.getLsbD i.val = (mask.getLsbD i.val || s.out.host.getLsbD i.val)) ∧
       t = ({ s with out := { s.out with host := t.out.host } }).replied 0x52#8 tag .ok (le 8 t.out.host.toNat)) ∧
     (∃ t, exec (.outputsClear tag mask) s = .next t ∧
       (∀ i : Fin 64, t.out.host.getLsbD i.val = (!mask.getLsbD i.val && s.out.host.getLsbD i.val)) ∧
       t = ({ s with out := { s.out with host := t.out.host } }).replied 0x53#8 tag .ok (le 8 t.out.host.toNat))) ∧
   (∀ s : State, s.phase = .running → ∃ t, exec .pwmPeriod s = .next t ∧
     t = { s with out := { s.out with duty := t.out.duty, pwmOn := decide (s.out.mode = .live) },
                  link := s.link.choose } ∧
     ∀ c : Fin 48, t.out.duty.get c = (s.jets.channels.get c).live.opening)) ∧
  (∀ (s : State) (tag : Byte), s.Ready → s.out.mode = .live →
     ∃ t, exec (.setPlant tag 0#8) s = .next t ∧ t.out.mode = .safe ∧ t.out.pwmOn = false) ∧
  (∀ s : State, s.tripAny = true ↔
     ∃ r ∈ s.trip.reactions.cells, s.isActive r = true ∧ r.cfg.kind ≠ .noticeOnly) ∧
  (∀ (s : State) (i : Fin 64) (cfg : OutputCfg),
     (s.phase ≠ .running → s.shown i.val cfg = .low) ∧
     (s.phase = .running → s.out.mode = .safe → s.shown i.val cfg = if cfg.safeLevel then .high else .low) ∧
     (s.phase = .running → s.out.mode = .live →
       let level : Bool → Shown := fun b => if b = cfg.invert then .low else .high
       match cfg.source with
       | .channelOpening c => (s.out.pwmOn = true →
           s.shown i.val cfg = .pwm (if cfg.invert then 1000 - s.out.duty.get c else s.out.duty.get c)) ∧
         (s.out.pwmOn = false → s.shown i.val cfg = .pwm (if cfg.safeLevel then 1000 else 0))
       | .pumpPermit p => s.shown i.val cfg = level (decide ((s.water.pumps.get p).live.state = .starting ∨
           (s.water.pumps.get p).live.state = .running ∨ (s.water.pumps.get p).live.state = .stopping))
       | .plantLive => s.shown i.val cfg = level true
       | .showActive => s.shown i.val cfg = level (decide (s.seq.state ≠ .idle))
       | .tripAny => s.shown i.val cfg = level s.tripAny
       | .flag n => s.shown i.val cfg = level (s.seq.flags.getLsbD n.val)
       | .condition c => s.shown i.val cfg = level (s.trip.conditions.get c).filtered
       | .hostLevel => s.shown i.val cfg = level (s.out.host.getLsbD i.val)
       | .constLow => s.shown i.val cfg = level false
       | .constHigh => s.shown i.val cfg = level true))
end

