-- ==== Sys2Proof/Laws/Memory.lean ====
section
/-! SUPPORT. The flash's bytes: every operation keeps the canonical form, and what a byte reads as after it. -/

namespace Sys2Proof.Machine

/-- The canonical form with every listed address at or above a bound. -/
def Memory.above (b : Nat) (m : List Host.Cell) : Prop := Memory.wf m = true ∧ ∀ c ∈ m, b ≤ c.1

theorem Memory.wf_cons {c : Host.Cell} {m : List Host.Cell} :
    Memory.wf (c :: m) = true ↔ c.2 ≠ Config.flashBlank ∧ Memory.above (c.1 + 1) m := by
  induction m generalizing c with
  | nil => simp [Memory.wf, Memory.above]
  | cons d ds ih =>
    constructor
    · intro h
      simp only [Memory.wf, Bool.and_eq_true, decide_eq_true_eq, bne_iff_ne] at h
      refine ⟨h.1.2, h.2, fun x hx => ?_⟩
      rcases List.mem_cons.1 hx with rfl | hx
      · exact h.1.1
      · have := (ih.1 h.2).2.2 x hx
        omega
    · rintro ⟨h1, h2, h3⟩
      simp only [Memory.wf, Bool.and_eq_true, decide_eq_true_eq, bne_iff_ne]
      exact ⟨⟨h3 d (by simp), h1⟩, h2⟩

theorem Memory.wf_tail {c : Host.Cell} {m : List Host.Cell} (h : Memory.wf (c :: m) = true) : Memory.wf m = true :=
  (Memory.wf_cons.1 h).2.1

/-- Below every listed address the memory reads blank. -/
theorem Memory.read_below {b a : Nat} {m : List Host.Cell} (h : Memory.above b m) (ha : a < b) :
    Memory.read m a = Config.flashBlank := by
  induction m with
  | nil => rfl
  | cons c cs ih =>
    have hc := h.2 c (by simp)
    simp only [Memory.read, if_neg (show ¬ c.1 = a by omega)]
    exact ih ⟨Memory.wf_tail h.1, fun x hx => h.2 x (by simp [hx])⟩

theorem Memory.write_above {b a : Nat} {m : List Host.Cell} (h : Memory.above b m) (ha : b ≤ a) (v : Byte) :
    Memory.above b (Memory.write m a v) := by
  induction m generalizing b with
  | nil =>
    unfold Memory.write
    split
    · exact ⟨rfl, by simp⟩
    · refine ⟨by simpa [Memory.wf], by simpa⟩
  | cons c cs ih =>
    have hw := Memory.wf_cons.1 h.1
    have hc := h.2 c (by simp)
    have hcs : ∀ x ∈ cs, b ≤ x.1 := fun x hx => h.2 x (by simp [hx])
    unfold Memory.write
    split
    · next hlt =>
      have := ih hw.2 (by omega)
      refine ⟨Memory.wf_cons.2 ⟨hw.1, this⟩, fun x hx => ?_⟩
      rcases List.mem_cons.1 hx with rfl | hx
      · exact hc
      · exact Nat.le_trans (by omega) (this.2 x hx)
    · next hge =>
      split
      · next heq =>
        split
        · exact ⟨hw.2.1, hcs⟩
        · next hv =>
          refine ⟨Memory.wf_cons.2 ⟨hv, heq ▸ hw.2⟩, fun x hx => ?_⟩
          rcases List.mem_cons.1 hx with rfl | hx
          · exact ha
          · exact hcs x hx
      · next hne =>
        split
        · exact h
        · next hv =>
          refine ⟨Memory.wf_cons.2 ⟨hv, h.1, fun x hx => ?_⟩, fun x hx => ?_⟩
          · rcases List.mem_cons.1 hx with rfl | hx
            · show a + 1 ≤ _; omega
            · have := hw.2.2 x hx; show a + 1 ≤ _; omega
          · rcases List.mem_cons.1 hx with rfl | hx
            · exact ha
            · exact h.2 x hx

/-- A write keeps the canonical form. -/
theorem Memory.write_wf {m : List Host.Cell} (h : Memory.wf m = true) (a : Nat) (v : Byte) :
    Memory.wf (Memory.write m a v) = true :=
  (Memory.write_above (b := 0) ⟨h, by simp⟩ (Nat.zero_le a) v).1

/-- A byte reads as written, and every other byte as before. -/
theorem Memory.read_write {m : List Host.Cell} (h : Memory.wf m = true) (a : Nat) (v : Byte) (x : Nat) :
    Memory.read (Memory.write m a v) x = if x = a then v else Memory.read m x := by
  induction m with
  | nil =>
    unfold Memory.write
    by_cases hv : v = Config.flashBlank
    · by_cases hx : x = a <;> simp [hv, hx, Memory.read]
    · by_cases hx : x = a
      · simp [hv, hx, Memory.read]
      · simp [hv, hx, Memory.read, show ¬ a = x from fun h => hx h.symm]
  | cons c cs ih =>
    have hw := Memory.wf_cons.1 h
    have ih := ih hw.2.1
    unfold Memory.write
    by_cases hlt : c.1 < a
    · simp only [if_pos hlt, Memory.read, ih]
      by_cases hx : x = a
      · simp [hx, show ¬ c.1 = a by omega]
      · simp [hx]
    · by_cases heq : c.1 = a
      · simp only [if_neg hlt, if_pos heq]
        by_cases hv : v = Config.flashBlank
        · rw [if_pos hv]
          by_cases hx : x = a
          · rw [if_pos hx, hv, Memory.read_below hw.2 (by omega)]
          · simp [Memory.read, hx, show ¬ c.1 = x by omega]
        · rw [if_neg hv]
          by_cases hx : x = a
          · simp [Memory.read, hx]
          · simp [Memory.read, hx, show ¬ a = x from fun h => hx h.symm, show ¬ c.1 = x by omega]
      · simp only [if_neg hlt, if_neg heq]
        have hb : Memory.above (a + 1) (c :: cs) :=
          ⟨h, fun y hy => by
            rcases List.mem_cons.1 hy with rfl | hy
            · omega
            · have := hw.2.2 y hy; omega⟩
        by_cases hv : v = Config.flashBlank
        · rw [if_pos hv]
          by_cases hx : x = a
          · rw [if_pos hx, hv, hx, Memory.read_below hb (by omega)]
          · rw [if_neg hx]
        · rw [if_neg hv]
          by_cases hx : x = a
          · simp [Memory.read, hx]
          · rw [if_neg hx]
            conv => lhs; unfold Memory.read
            rw [if_neg (show ¬ a = x from fun h => hx h.symm)]

/-- A run of writes keeps the canonical form. -/
theorem Memory.writeAll_wf {m : List Host.Cell} (h : Memory.wf m = true) (a : Nat) (vs : List Byte) :
    Memory.wf (Memory.writeAll m a vs) = true := by
  induction vs generalizing m a with
  | nil => exact h
  | cons v vs ih => exact ih (Memory.write_wf h a v) (a + 1)

/-- A run of writes leaves every byte outside its range. -/
theorem Memory.read_writeAll_outside {m : List Host.Cell} (h : Memory.wf m = true) (a : Nat) (vs : List Byte) {x : Nat}
    (hx : x < a ∨ a + vs.length ≤ x) : Memory.read (Memory.writeAll m a vs) x = Memory.read m x := by
  induction vs generalizing m a with
  | nil => rfl
  | cons v vs ih =>
    simp only [List.length_cons] at hx
    simp only [Memory.writeAll]
    rw [ih (Memory.write_wf h a v) (a + 1) (by omega), Memory.read_write h, if_neg (by omega)]

/-- A page program keeps the canonical form. -/
theorem Memory.program_wf {m : List Host.Cell} (h : Memory.wf m = true) (a : Nat) (vs : List Byte) :
    Memory.wf (Memory.program m a vs) = true := by
  induction vs generalizing m a with
  | nil => exact h
  | cons v vs ih => exact ih (Memory.write_wf h a _) (a + 1)

/-- A page program leaves every byte outside its range. -/
theorem Memory.read_program_outside {m : List Host.Cell} (h : Memory.wf m = true) (a : Nat) (vs : List Byte) {x : Nat}
    (hx : x < a ∨ a + vs.length ≤ x) : Memory.read (Memory.program m a vs) x = Memory.read m x := by
  induction vs generalizing m a with
  | nil => rfl
  | cons v vs ih =>
    simp only [List.length_cons] at hx
    simp only [Memory.program]
    rw [ih (Memory.write_wf h a _) (a + 1) (by omega), Memory.read_write h, if_neg (by omega)]

/-- A page program leaves at each byte of its range the old byte and the new one combined (R159). -/
theorem Memory.read_program_inside {m : List Host.Cell} (h : Memory.wf m = true) (a : Nat) (vs : List Byte) (i : Nat)
    (hi : i < vs.length) :
    Memory.read (Memory.program m a vs) (a + i) = Memory.read m (a + i) &&& vs[i] := by
  induction vs generalizing m a i with
  | nil => exact absurd hi (Nat.not_lt_zero i)
  | cons v vs ih =>
    simp only [Memory.program]
    cases i with
    | zero =>
      rw [Memory.read_program_outside (Memory.write_wf h a _) (a + 1) vs (by omega), Memory.read_write h]
      simp
    | succ i =>
      have hlen : i < vs.length := by simpa using hi
      rw [show a + (i + 1) = a + 1 + i by omega, ih (Memory.write_wf h a _) (a + 1) i hlen, Memory.read_write h,
        if_neg (by omega)]
      simp

/-- An erase keeps the canonical form. -/
theorem Memory.erase_wf {m : List Host.Cell} (h : Memory.wf m = true) (a n : Nat) :
    Memory.wf (Memory.erase m a n) = true := by
  unfold Memory.erase
  induction m with
  | nil => rfl
  | cons c cs ih =>
    have hw := Memory.wf_cons.1 h
    have ih := ih hw.2.1
    rw [List.filter_cons]
    split
    · exact Memory.wf_cons.2 ⟨hw.1, ih, fun x hx => hw.2.2 x (List.mem_filter.1 hx).1⟩
    · exact ih

/-- After an erase its range reads blank and every other byte as before. -/
theorem Memory.read_erase (m : List Host.Cell) (a n x : Nat) :
    Memory.read (Memory.erase m a n) x =
      if a ≤ x ∧ x < a + n then Config.flashBlank else Memory.read m x := by
  unfold Memory.erase
  induction m with
  | nil =>
    show Config.flashBlank = _
    split <;> rfl
  | cons c cs ih =>
    rw [List.filter_cons]
    split
    · next hk =>
      simp only [Bool.or_eq_true, decide_eq_true_eq] at hk
      simp only [Memory.read, ih]
      by_cases hx : c.1 = x
      · simp [hx, show ¬ (a ≤ x ∧ x < a + n) by omega]
      · simp [hx]
    · next hk =>
      simp only [Bool.or_eq_true, decide_eq_true_eq] at hk
      rw [ih]
      by_cases hr : a ≤ x ∧ x < a + n
      · simp [hr]
      · simp [hr, Memory.read, show ¬ c.1 = x by omega]

theorem State.reset_flash_wf : Memory.wf State.reset.flash.mem = true := rfl

/-! ### What an operation leaves in the flash -/

/-- A byte of the flash is the byte that the listed memory reads as (log 7). -/
theorem FlashUnit.byte_eq (f : FlashUnit) (a : Nat) : f.byte a = Memory.read f.mem a := rfl

theorem FlashUnit.hold_mem (f : FlashUnit) (o : FlashOp) (now : PlantTime) : (f.hold o now).mem = f.mem := by
  unfold FlashUnit.hold
  split <;> rfl

theorem State.spoil_wf {s : State} (h : Memory.wf s.flash.mem = true) (a n : Nat) :
    Memory.wf (s.spoil a n).flash.mem = true := by
  unfold State.spoil
  exact Memory.writeAll_wf h a (spoiledBytes s.free a n)

theorem State.spoilJob_wf {s : State} (h : Memory.wf s.flash.mem = true) (job : FlashJob) :
    Memory.wf (s.spoilJob job).flash.mem = true := by
  unfold State.spoilJob
  split
  · exact h
  · exact State.spoil_wf h _ _

/-- A step of a save keeps the canonical form (R198). -/
theorem FlashUnit.memAfter_wf {f : FlashUnit} (h : Memory.wf f.mem = true) (phase : SavePhase) :
    Memory.wf (f.memAfter phase) = true := by
  cases phase with
  | erasing k => exact Memory.erase_wf h _ _
  | writing k => exact Memory.program_wf h _ _
  | reading => exact h

/-- Another sector follows exactly when the image reaches into it (R198). -/
theorem FlashUnit.lt_imageSectors (f : FlashUnit) (k : Nat) :
    k + 1 < f.imageSectors ↔ 4096 * (k + 1) < (imageBytes f.saves).length := by
  unfold FlashUnit.imageSectors
  omega

/-- Another page follows exactly when the image reaches into it (R198). -/
theorem FlashUnit.lt_imagePages (f : FlashUnit) (k : Nat) :
    k + 1 < f.imagePages ↔ 256 * (k + 1) < (imageBytes f.saves).length := by
  unfold FlashUnit.imagePages
  omega

theorem FlashUnit.imagePage_length (f : FlashUnit) (k : Nat) : (f.imagePage k).length = 256 := by
  simp [FlashUnit.imagePage]

/-- A byte of the image within a page is that byte of the page written (R198). -/
theorem FlashUnit.imagePage_get {f : FlashUnit} {k j : Nat} {b : Byte} (hj : j < 256)
    (hb : (imageBytes f.saves)[256 * k + j]? = some b) :
    (f.imagePage k)[j]'(by rw [FlashUnit.imagePage_length]; exact hj) = b := by
  simp [FlashUnit.imagePage, List.getD, hb]

/-- After a done erase of a save its sector reads 0xFF and every other byte as before (R159, R198). -/
theorem FlashUnit.read_memAfter_erasing (f : FlashUnit) (k x : Nat) :
    Memory.read (f.memAfter (.erasing k)) x =
      if 4096 * k ≤ x ∧ x < 4096 * k + 4096 then Config.flashBlank else Memory.read f.mem x := by
  rw [FlashUnit.memAfter, Memory.read_erase]

/-- A done write of a save leaves every byte outside its page (R159, R198). -/
theorem FlashUnit.read_memAfter_writing_outside {f : FlashUnit} (h : Memory.wf f.mem = true) {k x : Nat}
    (hx : x < 256 * k ∨ 256 * k + 256 ≤ x) : Memory.read (f.memAfter (.writing k)) x = Memory.read f.mem x := by
  rw [FlashUnit.memAfter]
  exact Memory.read_program_outside h _ _ (by rw [FlashUnit.imagePage_length]; exact hx)

/-- A done write of a save combines the old byte with the image's at each byte of the image in its page (R159, R198). -/
theorem FlashUnit.read_memAfter_writing {f : FlashUnit} (h : Memory.wf f.mem = true) {k j : Nat} {b : Byte}
    (hj : j < 256) (hb : (imageBytes f.saves)[256 * k + j]? = some b) :
    Memory.read (f.memAfter (.writing k)) (256 * k + j) = Memory.read f.mem (256 * k + j) &&& b := by
  rw [FlashUnit.memAfter, Memory.read_program_inside h _ _ j (by rw [FlashUnit.imagePage_length]; exact hj),
    FlashUnit.imagePage_get hj hb]

theorem spoiledBytes_length (free a n : Nat) : (spoiledBytes free a n).length = n := by
  induction n generalizing a with
  | zero => rfl
  | succ n ih => simp [spoiledBytes, ih]

/-- An operation that did not succeed leaves every byte outside those it concerned (R159, R198; log 9). -/
theorem State.read_spoilJob_outside {s : State} (h : Memory.wf s.flash.mem = true) (job : FlashJob) {x : Nat}
    (hx : x < (s.flash.concerned job).1 ∨ (s.flash.concerned job).1 + (s.flash.concerned job).2 ≤ x) :
    Memory.read (s.spoilJob job).flash.mem x = Memory.read s.flash.mem x := by
  unfold State.spoilJob
  split
  · rfl
  · exact Memory.read_writeAll_outside h _ _ (by rw [spoiledBytes_length]; exact hx)

end Sys2Proof.Machine
end

