-- ==== Sys2Proof/Laws/Operands.lean ====
section
/-! SUPPORT. What each operand form reads from a code, in one line each. -/

namespace Sys2Proof.Machine

theorem below_lt {n : Nat} {b : Byte} (i : Fin n) (h : b.toNat = i.val) : below n b = some i := by
  unfold below
  rw [dif_pos (by omega)]
  exact congrArg some (Fin.ext h)

theorem below_ge {n : Nat} {b : Byte} (h : n ≤ b.toNat) : below n b = none := by
  unfold below
  rw [dif_neg (by omega)]

theorem manifoldOf_eq (b : Byte) : manifoldOf b = if b.toNat ≤ 1 then some (if b = 0#8 then .a else .b) else none := by
  revert b
  decide

theorem channelTypeOf_eq (b : Byte) :
    channelTypeOf b = if b.toNat ≤ 1 then some (if b = 0#8 then .proportional else .switched) else none := by
  revert b
  decide

theorem levelCodeOf_eq (b : Byte) :
    levelCodeOf b = if b.toNat < 8 then some (.level b.toNat) else if b = 0xFF#8 then some .keep
      else if b = 0xFE#8 then some .default else none := by
  revert b
  decide

theorem bitOf_eq (b : Byte) : bitOf b = if b = 0#8 then some false else if b = 1#8 then some true else none := by
  revert b
  decide

theorem targetOf_some {one groups : Nat} {index group : Byte}
    (h : group = 0#8 ∧ index.toNat < one ∨ group = 1#8 ∧ index.toNat < groups) :
    targetOf one groups index group = some (decide (group = 1#8), index.toNat) := by
  rcases h with ⟨rfl, h⟩ | ⟨rfl, h⟩ <;> simp [targetOf, bitOf, h]

theorem targetOf_none {one groups : Nat} {index group : Byte}
    (h : ¬ (group = 0#8 ∧ index.toNat < one ∨ group = 1#8 ∧ index.toNat < groups)) :
    targetOf one groups index group = none := by
  unfold targetOf
  rw [bitOf_eq]
  by_cases h0 : group = 0#8
  · simp [h0] at h ⊢
    omega
  · by_cases h1 : group = 1#8
    · simp [h1] at h ⊢
      omega
    · simp [h0, h1]

end Sys2Proof.Machine
end

