-- ==== Sys2Proof/Laws/State.lean ====
section
/-! SUPPORT. For each update of the state, one lemma for each field it leaves as it stands. -/

namespace Sys2Proof.Machine

variable (s : State)

/-! ### withPending -/

@[simp] theorem State.withPending_phase (q : List Instr) : (s.withPending q).phase = s.phase := rfl
@[simp] theorem State.withPending_baud (q : List Instr) : (s.withPending q).baud = s.baud := rfl
@[simp] theorem State.withPending_clock (q : List Instr) : (s.withPending q).clock = s.clock := rfl
@[simp] theorem State.withPending_store (q : List Instr) : (s.withPending q).store = s.store := rfl
@[simp] theorem State.withPending_seq (q : List Instr) : (s.withPending q).seq = s.seq := rfl
@[simp] theorem State.withPending_jets (q : List Instr) : (s.withPending q).jets = s.jets := rfl
@[simp] theorem State.withPending_water (q : List Instr) : (s.withPending q).water = s.water := rfl
@[simp] theorem State.withPending_wind (q : List Instr) : (s.withPending q).wind = s.wind := rfl
@[simp] theorem State.withPending_light (q : List Instr) : (s.withPending q).light = s.light := rfl
@[simp] theorem State.withPending_audio (q : List Instr) : (s.withPending q).audio = s.audio := rfl
@[simp] theorem State.withPending_flash (q : List Instr) : (s.withPending q).flash = s.flash := rfl
@[simp] theorem State.withPending_trip (q : List Instr) : (s.withPending q).trip = s.trip := rfl
@[simp] theorem State.withPending_out (q : List Instr) : (s.withPending q).out = s.out := rfl
@[simp] theorem State.withPending_link (q : List Instr) : (s.withPending q).link = s.link := rfl
@[simp] theorem State.withPending_free (q : List Instr) : (s.withPending q).free = s.free := rfl

/-! ### makePending -/

@[simp] theorem State.makePending_phase (n : Notice) : (s.makePending n).phase = s.phase := rfl
@[simp] theorem State.makePending_baud (n : Notice) : (s.makePending n).baud = s.baud := rfl
@[simp] theorem State.makePending_clock (n : Notice) : (s.makePending n).clock = s.clock := rfl
@[simp] theorem State.makePending_store (n : Notice) : (s.makePending n).store = s.store := rfl
@[simp] theorem State.makePending_seq (n : Notice) : (s.makePending n).seq = s.seq := rfl
@[simp] theorem State.makePending_jets (n : Notice) : (s.makePending n).jets = s.jets := rfl
@[simp] theorem State.makePending_water (n : Notice) : (s.makePending n).water = s.water := rfl
@[simp] theorem State.makePending_wind (n : Notice) : (s.makePending n).wind = s.wind := rfl
@[simp] theorem State.makePending_light (n : Notice) : (s.makePending n).light = s.light := rfl
@[simp] theorem State.makePending_audio (n : Notice) : (s.makePending n).audio = s.audio := rfl
@[simp] theorem State.makePending_flash (n : Notice) : (s.makePending n).flash = s.flash := rfl
@[simp] theorem State.makePending_trip (n : Notice) : (s.makePending n).trip = s.trip := rfl
@[simp] theorem State.makePending_out (n : Notice) : (s.makePending n).out = s.out := rfl
@[simp] theorem State.makePending_free (n : Notice) : (s.makePending n).free = s.free := rfl
@[simp] theorem State.makePending_pending (n : Notice) : (s.makePending n).pending = s.pending := rfl

/-! ### joinReply -/

@[simp] theorem State.joinReply_phase (r : Reply) : (s.joinReply r).phase = s.phase := rfl
@[simp] theorem State.joinReply_baud (r : Reply) : (s.joinReply r).baud = s.baud := rfl
@[simp] theorem State.joinReply_clock (r : Reply) : (s.joinReply r).clock = s.clock := rfl
@[simp] theorem State.joinReply_store (r : Reply) : (s.joinReply r).store = s.store := rfl
@[simp] theorem State.joinReply_seq (r : Reply) : (s.joinReply r).seq = s.seq := rfl
@[simp] theorem State.joinReply_jets (r : Reply) : (s.joinReply r).jets = s.jets := rfl
@[simp] theorem State.joinReply_water (r : Reply) : (s.joinReply r).water = s.water := rfl
@[simp] theorem State.joinReply_wind (r : Reply) : (s.joinReply r).wind = s.wind := rfl
@[simp] theorem State.joinReply_light (r : Reply) : (s.joinReply r).light = s.light := rfl
@[simp] theorem State.joinReply_audio (r : Reply) : (s.joinReply r).audio = s.audio := rfl
@[simp] theorem State.joinReply_flash (r : Reply) : (s.joinReply r).flash = s.flash := rfl
@[simp] theorem State.joinReply_trip (r : Reply) : (s.joinReply r).trip = s.trip := rfl
@[simp] theorem State.joinReply_out (r : Reply) : (s.joinReply r).out = s.out := rfl
@[simp] theorem State.joinReply_free (r : Reply) : (s.joinReply r).free = s.free := rfl
@[simp] theorem State.joinReply_pending (r : Reply) : (s.joinReply r).pending = s.pending := rfl

/-! ### answer -/

@[simp] theorem State.answer_phase (k t : Byte) (st : Status) (fs : List Byte) : (s.answer k t st fs).phase = s.phase :=
    rfl
@[simp] theorem State.answer_baud (k t : Byte) (st : Status) (fs : List Byte) : (s.answer k t st fs).baud = s.baud :=
    rfl
@[simp] theorem State.answer_clock (k t : Byte) (st : Status) (fs : List Byte) : (s.answer k t st fs).clock = s.clock :=
    rfl
@[simp] theorem State.answer_store (k t : Byte) (st : Status) (fs : List Byte) : (s.answer k t st fs).store = s.store :=
    rfl
@[simp] theorem State.answer_seq (k t : Byte) (st : Status) (fs : List Byte) : (s.answer k t st fs).seq = s.seq := rfl
@[simp] theorem State.answer_jets (k t : Byte) (st : Status) (fs : List Byte) : (s.answer k t st fs).jets = s.jets :=
    rfl
@[simp] theorem State.answer_water (k t : Byte) (st : Status) (fs : List Byte) : (s.answer k t st fs).water = s.water :=
    rfl
@[simp] theorem State.answer_wind (k t : Byte) (st : Status) (fs : List Byte) : (s.answer k t st fs).wind = s.wind :=
    rfl
@[simp] theorem State.answer_light (k t : Byte) (st : Status) (fs : List Byte) : (s.answer k t st fs).light = s.light :=
    rfl
@[simp] theorem State.answer_audio (k t : Byte) (st : Status) (fs : List Byte) : (s.answer k t st fs).audio = s.audio :=
    rfl
@[simp] theorem State.answer_flash (k t : Byte) (st : Status) (fs : List Byte) : (s.answer k t st fs).flash = s.flash :=
    rfl
@[simp] theorem State.answer_trip (k t : Byte) (st : Status) (fs : List Byte) : (s.answer k t st fs).trip = s.trip :=
    rfl
@[simp] theorem State.answer_out (k t : Byte) (st : Status) (fs : List Byte) : (s.answer k t st fs).out = s.out := rfl
@[simp] theorem State.answer_free (k t : Byte) (st : Status) (fs : List Byte) : (s.answer k t st fs).free = s.free :=
    rfl
@[simp] theorem State.answer_pending (k t : Byte) (st : Status) (fs : List Byte) : (s.answer k t st fs).pending = s.pending :=
    rfl

/-! ### ok -/

@[simp] theorem State.ok_phase (k t : Byte) : (s.ok k t).phase = s.phase := rfl
@[simp] theorem State.ok_baud (k t : Byte) : (s.ok k t).baud = s.baud := rfl
@[simp] theorem State.ok_clock (k t : Byte) : (s.ok k t).clock = s.clock := rfl
@[simp] theorem State.ok_store (k t : Byte) : (s.ok k t).store = s.store := rfl
@[simp] theorem State.ok_seq (k t : Byte) : (s.ok k t).seq = s.seq := rfl
@[simp] theorem State.ok_jets (k t : Byte) : (s.ok k t).jets = s.jets := rfl
@[simp] theorem State.ok_water (k t : Byte) : (s.ok k t).water = s.water := rfl
@[simp] theorem State.ok_wind (k t : Byte) : (s.ok k t).wind = s.wind := rfl
@[simp] theorem State.ok_light (k t : Byte) : (s.ok k t).light = s.light := rfl
@[simp] theorem State.ok_audio (k t : Byte) : (s.ok k t).audio = s.audio := rfl
@[simp] theorem State.ok_flash (k t : Byte) : (s.ok k t).flash = s.flash := rfl
@[simp] theorem State.ok_trip (k t : Byte) : (s.ok k t).trip = s.trip := rfl
@[simp] theorem State.ok_out (k t : Byte) : (s.ok k t).out = s.out := rfl
@[simp] theorem State.ok_free (k t : Byte) : (s.ok k t).free = s.free := rfl
@[simp] theorem State.ok_pending (k t : Byte) : (s.ok k t).pending = s.pending := rfl

/-! ### refuse -/

@[simp] theorem State.refuse_phase (k t : Byte) (st : Status) : (s.refuse k t st).phase = s.phase := rfl
@[simp] theorem State.refuse_baud (k t : Byte) (st : Status) : (s.refuse k t st).baud = s.baud := rfl
@[simp] theorem State.refuse_clock (k t : Byte) (st : Status) : (s.refuse k t st).clock = s.clock := rfl
@[simp] theorem State.refuse_store (k t : Byte) (st : Status) : (s.refuse k t st).store = s.store := rfl
@[simp] theorem State.refuse_seq (k t : Byte) (st : Status) : (s.refuse k t st).seq = s.seq := rfl
@[simp] theorem State.refuse_jets (k t : Byte) (st : Status) : (s.refuse k t st).jets = s.jets := rfl
@[simp] theorem State.refuse_water (k t : Byte) (st : Status) : (s.refuse k t st).water = s.water := rfl
@[simp] theorem State.refuse_wind (k t : Byte) (st : Status) : (s.refuse k t st).wind = s.wind := rfl
@[simp] theorem State.refuse_light (k t : Byte) (st : Status) : (s.refuse k t st).light = s.light := rfl
@[simp] theorem State.refuse_audio (k t : Byte) (st : Status) : (s.refuse k t st).audio = s.audio := rfl
@[simp] theorem State.refuse_flash (k t : Byte) (st : Status) : (s.refuse k t st).flash = s.flash := rfl
@[simp] theorem State.refuse_trip (k t : Byte) (st : Status) : (s.refuse k t st).trip = s.trip := rfl
@[simp] theorem State.refuse_out (k t : Byte) (st : Status) : (s.refuse k t st).out = s.out := rfl
@[simp] theorem State.refuse_free (k t : Byte) (st : Status) : (s.refuse k t st).free = s.free := rfl
@[simp] theorem State.refuse_pending (k t : Byte) (st : Status) : (s.refuse k t st).pending = s.pending := rfl

/-! ### transmit -/

@[simp] theorem State.transmit_phase : (s.transmit).phase = s.phase := rfl
@[simp] theorem State.transmit_baud : (s.transmit).baud = s.baud := rfl
@[simp] theorem State.transmit_clock : (s.transmit).clock = s.clock := rfl
@[simp] theorem State.transmit_store : (s.transmit).store = s.store := rfl
@[simp] theorem State.transmit_seq : (s.transmit).seq = s.seq := rfl
@[simp] theorem State.transmit_jets : (s.transmit).jets = s.jets := rfl
@[simp] theorem State.transmit_water : (s.transmit).water = s.water := rfl
@[simp] theorem State.transmit_wind : (s.transmit).wind = s.wind := rfl
@[simp] theorem State.transmit_light : (s.transmit).light = s.light := rfl
@[simp] theorem State.transmit_audio : (s.transmit).audio = s.audio := rfl
@[simp] theorem State.transmit_flash : (s.transmit).flash = s.flash := rfl
@[simp] theorem State.transmit_trip : (s.transmit).trip = s.trip := rfl
@[simp] theorem State.transmit_out : (s.transmit).out = s.out := rfl
@[simp] theorem State.transmit_free : (s.transmit).free = s.free := rfl
@[simp] theorem State.transmit_pending : (s.transmit).pending = s.pending := rfl

/-! ### hunt -/

@[simp] theorem State.hunt_phase : (s.hunt).phase = s.phase := rfl
@[simp] theorem State.hunt_baud : (s.hunt).baud = s.baud := rfl
@[simp] theorem State.hunt_clock : (s.hunt).clock = s.clock := rfl
@[simp] theorem State.hunt_store : (s.hunt).store = s.store := rfl
@[simp] theorem State.hunt_seq : (s.hunt).seq = s.seq := rfl
@[simp] theorem State.hunt_jets : (s.hunt).jets = s.jets := rfl
@[simp] theorem State.hunt_water : (s.hunt).water = s.water := rfl
@[simp] theorem State.hunt_wind : (s.hunt).wind = s.wind := rfl
@[simp] theorem State.hunt_light : (s.hunt).light = s.light := rfl
@[simp] theorem State.hunt_audio : (s.hunt).audio = s.audio := rfl
@[simp] theorem State.hunt_flash : (s.hunt).flash = s.flash := rfl
@[simp] theorem State.hunt_trip : (s.hunt).trip = s.trip := rfl
@[simp] theorem State.hunt_out : (s.hunt).out = s.out := rfl
@[simp] theorem State.hunt_free : (s.hunt).free = s.free := rfl
@[simp] theorem State.hunt_pending : (s.hunt).pending = s.pending := rfl

/-! ### withRx -/

@[simp] theorem State.withRx_phase (rx : RxState) : (s.withRx rx).phase = s.phase := rfl
@[simp] theorem State.withRx_baud (rx : RxState) : (s.withRx rx).baud = s.baud := rfl
@[simp] theorem State.withRx_clock (rx : RxState) : (s.withRx rx).clock = s.clock := rfl
@[simp] theorem State.withRx_store (rx : RxState) : (s.withRx rx).store = s.store := rfl
@[simp] theorem State.withRx_seq (rx : RxState) : (s.withRx rx).seq = s.seq := rfl
@[simp] theorem State.withRx_jets (rx : RxState) : (s.withRx rx).jets = s.jets := rfl
@[simp] theorem State.withRx_water (rx : RxState) : (s.withRx rx).water = s.water := rfl
@[simp] theorem State.withRx_wind (rx : RxState) : (s.withRx rx).wind = s.wind := rfl
@[simp] theorem State.withRx_light (rx : RxState) : (s.withRx rx).light = s.light := rfl
@[simp] theorem State.withRx_audio (rx : RxState) : (s.withRx rx).audio = s.audio := rfl
@[simp] theorem State.withRx_flash (rx : RxState) : (s.withRx rx).flash = s.flash := rfl
@[simp] theorem State.withRx_trip (rx : RxState) : (s.withRx rx).trip = s.trip := rfl
@[simp] theorem State.withRx_out (rx : RxState) : (s.withRx rx).out = s.out := rfl
@[simp] theorem State.withRx_free (rx : RxState) : (s.withRx rx).free = s.free := rfl
@[simp] theorem State.withRx_pending (rx : RxState) : (s.withRx rx).pending = s.pending := rfl

/-! ### silence -/

@[simp] theorem State.silence_phase : (s.silence).phase = s.phase := rfl
@[simp] theorem State.silence_baud : (s.silence).baud = s.baud := rfl
@[simp] theorem State.silence_clock : (s.silence).clock = s.clock := rfl
@[simp] theorem State.silence_store : (s.silence).store = s.store := rfl
@[simp] theorem State.silence_seq : (s.silence).seq = s.seq := rfl
@[simp] theorem State.silence_jets : (s.silence).jets = s.jets := rfl
@[simp] theorem State.silence_water : (s.silence).water = s.water := rfl
@[simp] theorem State.silence_wind : (s.silence).wind = s.wind := rfl
@[simp] theorem State.silence_light : (s.silence).light = { s.light with line := [] } := rfl
@[simp] theorem State.silence_audio : (s.silence).audio = s.audio := rfl
@[simp] theorem State.silence_flash : (s.silence).flash = s.flash := rfl
@[simp] theorem State.silence_trip : (s.silence).trip = s.trip := rfl
@[simp] theorem State.silence_out : (s.silence).out = s.out := rfl
@[simp] theorem State.silence_free : (s.silence).free = s.free := rfl
@[simp] theorem State.silence_pending : (s.silence).pending = s.pending := rfl

/-! ### withOutstanding -/

@[simp] theorem State.withOutstanding_phase (b : Bool) : (s.withOutstanding b).phase = s.phase := rfl
@[simp] theorem State.withOutstanding_baud (b : Bool) : (s.withOutstanding b).baud = s.baud := rfl
@[simp] theorem State.withOutstanding_clock (b : Bool) : (s.withOutstanding b).clock = s.clock := rfl
@[simp] theorem State.withOutstanding_store (b : Bool) : (s.withOutstanding b).store = s.store := rfl
@[simp] theorem State.withOutstanding_seq (b : Bool) : (s.withOutstanding b).seq = s.seq := rfl
@[simp] theorem State.withOutstanding_jets (b : Bool) : (s.withOutstanding b).jets = s.jets := rfl
@[simp] theorem State.withOutstanding_water (b : Bool) : (s.withOutstanding b).water = s.water := rfl
@[simp] theorem State.withOutstanding_wind (b : Bool) : (s.withOutstanding b).wind = s.wind := rfl
@[simp] theorem State.withOutstanding_light (b : Bool) : (s.withOutstanding b).light = s.light := rfl
@[simp] theorem State.withOutstanding_audio (b : Bool) : (s.withOutstanding b).audio = s.audio := rfl
@[simp] theorem State.withOutstanding_flash (b : Bool) : (s.withOutstanding b).flash = s.flash := rfl
@[simp] theorem State.withOutstanding_trip (b : Bool) : (s.withOutstanding b).trip = s.trip := rfl
@[simp] theorem State.withOutstanding_out (b : Bool) : (s.withOutstanding b).out = s.out := rfl
@[simp] theorem State.withOutstanding_free (b : Bool) : (s.withOutstanding b).free = s.free := rfl
@[simp] theorem State.withOutstanding_pending (b : Bool) : (s.withOutstanding b).pending = s.pending := rfl

/-! ### giveJets -/

@[simp] theorem State.giveJets_phase (r : Nat → Bool) (h f : Nat) (l : LevelCode) (b : Bool) : (s.giveJets r h f l b).phase = s.phase :=
    rfl
@[simp] theorem State.giveJets_baud (r : Nat → Bool) (h f : Nat) (l : LevelCode) (b : Bool) : (s.giveJets r h f l b).baud = s.baud :=
    rfl
@[simp] theorem State.giveJets_clock (r : Nat → Bool) (h f : Nat) (l : LevelCode) (b : Bool) : (s.giveJets r h f l b).clock = s.clock :=
    rfl
@[simp] theorem State.giveJets_store (r : Nat → Bool) (h f : Nat) (l : LevelCode) (b : Bool) : (s.giveJets r h f l b).store = s.store :=
    rfl
@[simp] theorem State.giveJets_seq (r : Nat → Bool) (h f : Nat) (l : LevelCode) (b : Bool) : (s.giveJets r h f l b).seq = s.seq :=
    rfl
@[simp] theorem State.giveJets_water (r : Nat → Bool) (h f : Nat) (l : LevelCode) (b : Bool) : (s.giveJets r h f l b).water = s.water :=
    rfl
@[simp] theorem State.giveJets_wind (r : Nat → Bool) (h f : Nat) (l : LevelCode) (b : Bool) : (s.giveJets r h f l b).wind = s.wind :=
    rfl
@[simp] theorem State.giveJets_light (r : Nat → Bool) (h f : Nat) (l : LevelCode) (b : Bool) : (s.giveJets r h f l b).light = s.light :=
    rfl
@[simp] theorem State.giveJets_audio (r : Nat → Bool) (h f : Nat) (l : LevelCode) (b : Bool) : (s.giveJets r h f l b).audio = s.audio :=
    rfl
@[simp] theorem State.giveJets_flash (r : Nat → Bool) (h f : Nat) (l : LevelCode) (b : Bool) : (s.giveJets r h f l b).flash = s.flash :=
    rfl
@[simp] theorem State.giveJets_trip (r : Nat → Bool) (h f : Nat) (l : LevelCode) (b : Bool) : (s.giveJets r h f l b).trip = s.trip :=
    rfl
@[simp] theorem State.giveJets_out (r : Nat → Bool) (h f : Nat) (l : LevelCode) (b : Bool) : (s.giveJets r h f l b).out = s.out :=
    rfl
@[simp] theorem State.giveJets_link (r : Nat → Bool) (h f : Nat) (l : LevelCode) (b : Bool) : (s.giveJets r h f l b).link = s.link :=
    rfl
@[simp] theorem State.giveJets_free (r : Nat → Bool) (h f : Nat) (l : LevelCode) (b : Bool) : (s.giveJets r h f l b).free = s.free :=
    rfl
@[simp] theorem State.giveJets_pending (r : Nat → Bool) (h f : Nat) (l : LevelCode) (b : Bool) : (s.giveJets r h f l b).pending = s.pending :=
    rfl

/-! ### givePumps -/

@[simp] theorem State.givePumps_phase (r : Nat → Pump → Bool) (v p : Nat) : (s.givePumps r v p).phase = s.phase := rfl
@[simp] theorem State.givePumps_baud (r : Nat → Pump → Bool) (v p : Nat) : (s.givePumps r v p).baud = s.baud := rfl
@[simp] theorem State.givePumps_clock (r : Nat → Pump → Bool) (v p : Nat) : (s.givePumps r v p).clock = s.clock := rfl
@[simp] theorem State.givePumps_store (r : Nat → Pump → Bool) (v p : Nat) : (s.givePumps r v p).store = s.store := rfl
@[simp] theorem State.givePumps_seq (r : Nat → Pump → Bool) (v p : Nat) : (s.givePumps r v p).seq = s.seq := rfl
@[simp] theorem State.givePumps_jets (r : Nat → Pump → Bool) (v p : Nat) : (s.givePumps r v p).jets = s.jets := rfl
@[simp] theorem State.givePumps_wind (r : Nat → Pump → Bool) (v p : Nat) : (s.givePumps r v p).wind = s.wind := rfl
@[simp] theorem State.givePumps_light (r : Nat → Pump → Bool) (v p : Nat) : (s.givePumps r v p).light = s.light := rfl
@[simp] theorem State.givePumps_audio (r : Nat → Pump → Bool) (v p : Nat) : (s.givePumps r v p).audio = s.audio := rfl
@[simp] theorem State.givePumps_flash (r : Nat → Pump → Bool) (v p : Nat) : (s.givePumps r v p).flash = s.flash := rfl
@[simp] theorem State.givePumps_trip (r : Nat → Pump → Bool) (v p : Nat) : (s.givePumps r v p).trip = s.trip := rfl
@[simp] theorem State.givePumps_out (r : Nat → Pump → Bool) (v p : Nat) : (s.givePumps r v p).out = s.out := rfl
@[simp] theorem State.givePumps_link (r : Nat → Pump → Bool) (v p : Nat) : (s.givePumps r v p).link = s.link := rfl
@[simp] theorem State.givePumps_free (r : Nat → Pump → Bool) (v p : Nat) : (s.givePumps r v p).free = s.free := rfl
@[simp] theorem State.givePumps_pending (r : Nat → Pump → Bool) (v p : Nat) : (s.givePumps r v p).pending = s.pending :=
    rfl

/-! ### zeroPumps -/

@[simp] theorem State.zeroPumps_phase : (s.zeroPumps).phase = s.phase := rfl
@[simp] theorem State.zeroPumps_baud : (s.zeroPumps).baud = s.baud := rfl
@[simp] theorem State.zeroPumps_clock : (s.zeroPumps).clock = s.clock := rfl
@[simp] theorem State.zeroPumps_store : (s.zeroPumps).store = s.store := rfl
@[simp] theorem State.zeroPumps_seq : (s.zeroPumps).seq = s.seq := rfl
@[simp] theorem State.zeroPumps_jets : (s.zeroPumps).jets = s.jets := rfl
@[simp] theorem State.zeroPumps_wind : (s.zeroPumps).wind = s.wind := rfl
@[simp] theorem State.zeroPumps_light : (s.zeroPumps).light = s.light := rfl
@[simp] theorem State.zeroPumps_audio : (s.zeroPumps).audio = s.audio := rfl
@[simp] theorem State.zeroPumps_flash : (s.zeroPumps).flash = s.flash := rfl
@[simp] theorem State.zeroPumps_trip : (s.zeroPumps).trip = s.trip := rfl
@[simp] theorem State.zeroPumps_out : (s.zeroPumps).out = s.out := rfl
@[simp] theorem State.zeroPumps_link : (s.zeroPumps).link = s.link := rfl
@[simp] theorem State.zeroPumps_free : (s.zeroPumps).free = s.free := rfl
@[simp] theorem State.zeroPumps_pending : (s.zeroPumps).pending = s.pending := rfl

/-! ### onPump -/

@[simp] theorem State.onPump_phase (p : Fin 8) (f : Pump → Pump) : (s.onPump p f).phase = s.phase := rfl
@[simp] theorem State.onPump_baud (p : Fin 8) (f : Pump → Pump) : (s.onPump p f).baud = s.baud := rfl
@[simp] theorem State.onPump_clock (p : Fin 8) (f : Pump → Pump) : (s.onPump p f).clock = s.clock := rfl
@[simp] theorem State.onPump_store (p : Fin 8) (f : Pump → Pump) : (s.onPump p f).store = s.store := rfl
@[simp] theorem State.onPump_seq (p : Fin 8) (f : Pump → Pump) : (s.onPump p f).seq = s.seq := rfl
@[simp] theorem State.onPump_jets (p : Fin 8) (f : Pump → Pump) : (s.onPump p f).jets = s.jets := rfl
@[simp] theorem State.onPump_wind (p : Fin 8) (f : Pump → Pump) : (s.onPump p f).wind = s.wind := rfl
@[simp] theorem State.onPump_light (p : Fin 8) (f : Pump → Pump) : (s.onPump p f).light = s.light := rfl
@[simp] theorem State.onPump_audio (p : Fin 8) (f : Pump → Pump) : (s.onPump p f).audio = s.audio := rfl
@[simp] theorem State.onPump_flash (p : Fin 8) (f : Pump → Pump) : (s.onPump p f).flash = s.flash := rfl
@[simp] theorem State.onPump_trip (p : Fin 8) (f : Pump → Pump) : (s.onPump p f).trip = s.trip := rfl
@[simp] theorem State.onPump_out (p : Fin 8) (f : Pump → Pump) : (s.onPump p f).out = s.out := rfl
@[simp] theorem State.onPump_link (p : Fin 8) (f : Pump → Pump) : (s.onPump p f).link = s.link := rfl
@[simp] theorem State.onPump_free (p : Fin 8) (f : Pump → Pump) : (s.onPump p f).free = s.free := rfl
@[simp] theorem State.onPump_pending (p : Fin 8) (f : Pump → Pump) : (s.onPump p f).pending = s.pending := rfl

/-! ### rewritePump -/

@[simp] theorem State.rewritePump_phase (p : Fin 8) (c : PumpCfg) : (s.rewritePump p c).phase = s.phase := rfl
@[simp] theorem State.rewritePump_baud (p : Fin 8) (c : PumpCfg) : (s.rewritePump p c).baud = s.baud := rfl
@[simp] theorem State.rewritePump_clock (p : Fin 8) (c : PumpCfg) : (s.rewritePump p c).clock = s.clock := rfl
@[simp] theorem State.rewritePump_store (p : Fin 8) (c : PumpCfg) : (s.rewritePump p c).store = s.store := rfl
@[simp] theorem State.rewritePump_seq (p : Fin 8) (c : PumpCfg) : (s.rewritePump p c).seq = s.seq := rfl
@[simp] theorem State.rewritePump_jets (p : Fin 8) (c : PumpCfg) : (s.rewritePump p c).jets = s.jets := rfl
@[simp] theorem State.rewritePump_wind (p : Fin 8) (c : PumpCfg) : (s.rewritePump p c).wind = s.wind := rfl
@[simp] theorem State.rewritePump_light (p : Fin 8) (c : PumpCfg) : (s.rewritePump p c).light = s.light := rfl
@[simp] theorem State.rewritePump_audio (p : Fin 8) (c : PumpCfg) : (s.rewritePump p c).audio = s.audio := rfl
@[simp] theorem State.rewritePump_flash (p : Fin 8) (c : PumpCfg) : (s.rewritePump p c).flash = s.flash := rfl
@[simp] theorem State.rewritePump_trip (p : Fin 8) (c : PumpCfg) : (s.rewritePump p c).trip = s.trip := rfl
@[simp] theorem State.rewritePump_out (p : Fin 8) (c : PumpCfg) : (s.rewritePump p c).out = s.out := rfl
@[simp] theorem State.rewritePump_link (p : Fin 8) (c : PumpCfg) : (s.rewritePump p c).link = s.link := rfl
@[simp] theorem State.rewritePump_free (p : Fin 8) (c : PumpCfg) : (s.rewritePump p c).free = s.free := rfl
@[simp] theorem State.rewritePump_pending (p : Fin 8) (c : PumpCfg) : (s.rewritePump p c).pending = s.pending := rfl
@[simp] theorem State.rewritePump_pumps (p : Fin 8) (c : PumpCfg) :
    (s.rewritePump p c).water.pumps = s.water.pumps.set p { cfg := c, live := .fresh c } := rfl
@[simp] theorem State.rewritePump_manifolds (p : Fin 8) (c : PumpCfg) :
    (s.rewritePump p c).water.manifolds = s.water.manifolds := rfl

/-! ### onPoll -/

@[simp] theorem State.onPoll_phase (f : PollState → PollState) : (s.onPoll f).phase = s.phase := rfl
@[simp] theorem State.onPoll_baud (f : PollState → PollState) : (s.onPoll f).baud = s.baud := rfl
@[simp] theorem State.onPoll_clock (f : PollState → PollState) : (s.onPoll f).clock = s.clock := rfl
@[simp] theorem State.onPoll_store (f : PollState → PollState) : (s.onPoll f).store = s.store := rfl
@[simp] theorem State.onPoll_seq (f : PollState → PollState) : (s.onPoll f).seq = s.seq := rfl
@[simp] theorem State.onPoll_jets (f : PollState → PollState) : (s.onPoll f).jets = s.jets := rfl
@[simp] theorem State.onPoll_wind (f : PollState → PollState) : (s.onPoll f).wind = s.wind := rfl
@[simp] theorem State.onPoll_light (f : PollState → PollState) : (s.onPoll f).light = s.light := rfl
@[simp] theorem State.onPoll_audio (f : PollState → PollState) : (s.onPoll f).audio = s.audio := rfl
@[simp] theorem State.onPoll_flash (f : PollState → PollState) : (s.onPoll f).flash = s.flash := rfl
@[simp] theorem State.onPoll_trip (f : PollState → PollState) : (s.onPoll f).trip = s.trip := rfl
@[simp] theorem State.onPoll_out (f : PollState → PollState) : (s.onPoll f).out = s.out := rfl
@[simp] theorem State.onPoll_link (f : PollState → PollState) : (s.onPoll f).link = s.link := rfl
@[simp] theorem State.onPoll_free (f : PollState → PollState) : (s.onPoll f).free = s.free := rfl
@[simp] theorem State.onPoll_pending (f : PollState → PollState) : (s.onPoll f).pending = s.pending := rfl

/-! ### closeExchange -/

@[simp] theorem State.closeExchange_phase : (s.closeExchange).phase = s.phase := rfl
@[simp] theorem State.closeExchange_baud : (s.closeExchange).baud = s.baud := rfl
@[simp] theorem State.closeExchange_clock : (s.closeExchange).clock = s.clock := rfl
@[simp] theorem State.closeExchange_store : (s.closeExchange).store = s.store := rfl
@[simp] theorem State.closeExchange_seq : (s.closeExchange).seq = s.seq := rfl
@[simp] theorem State.closeExchange_jets : (s.closeExchange).jets = s.jets := rfl
@[simp] theorem State.closeExchange_wind : (s.closeExchange).wind = s.wind := rfl
@[simp] theorem State.closeExchange_light : (s.closeExchange).light = s.light := rfl
@[simp] theorem State.closeExchange_audio : (s.closeExchange).audio = s.audio := rfl
@[simp] theorem State.closeExchange_flash : (s.closeExchange).flash = s.flash := rfl
@[simp] theorem State.closeExchange_trip : (s.closeExchange).trip = s.trip := rfl
@[simp] theorem State.closeExchange_out : (s.closeExchange).out = s.out := rfl
@[simp] theorem State.closeExchange_link : (s.closeExchange).link = s.link := rfl
@[simp] theorem State.closeExchange_free : (s.closeExchange).free = s.free := rfl
@[simp] theorem State.closeExchange_pending : (s.closeExchange).pending = s.pending := rfl

/-! ### giveLamps -/

@[simp] theorem State.giveLamps_phase (r : Nat → Bool) (c : Colour) (f m : Nat) (o : LampMode) : (s.giveLamps r c f m o).phase = s.phase :=
    rfl
@[simp] theorem State.giveLamps_baud (r : Nat → Bool) (c : Colour) (f m : Nat) (o : LampMode) : (s.giveLamps r c f m o).baud = s.baud :=
    rfl
@[simp] theorem State.giveLamps_clock (r : Nat → Bool) (c : Colour) (f m : Nat) (o : LampMode) : (s.giveLamps r c f m o).clock = s.clock :=
    rfl
@[simp] theorem State.giveLamps_store (r : Nat → Bool) (c : Colour) (f m : Nat) (o : LampMode) : (s.giveLamps r c f m o).store = s.store :=
    rfl
@[simp] theorem State.giveLamps_seq (r : Nat → Bool) (c : Colour) (f m : Nat) (o : LampMode) : (s.giveLamps r c f m o).seq = s.seq :=
    rfl
@[simp] theorem State.giveLamps_jets (r : Nat → Bool) (c : Colour) (f m : Nat) (o : LampMode) : (s.giveLamps r c f m o).jets = s.jets :=
    rfl
@[simp] theorem State.giveLamps_water (r : Nat → Bool) (c : Colour) (f m : Nat) (o : LampMode) : (s.giveLamps r c f m o).water = s.water :=
    rfl
@[simp] theorem State.giveLamps_wind (r : Nat → Bool) (c : Colour) (f m : Nat) (o : LampMode) : (s.giveLamps r c f m o).wind = s.wind :=
    rfl
@[simp] theorem State.giveLamps_audio (r : Nat → Bool) (c : Colour) (f m : Nat) (o : LampMode) : (s.giveLamps r c f m o).audio = s.audio :=
    rfl
@[simp] theorem State.giveLamps_flash (r : Nat → Bool) (c : Colour) (f m : Nat) (o : LampMode) : (s.giveLamps r c f m o).flash = s.flash :=
    rfl
@[simp] theorem State.giveLamps_trip (r : Nat → Bool) (c : Colour) (f m : Nat) (o : LampMode) : (s.giveLamps r c f m o).trip = s.trip :=
    rfl
@[simp] theorem State.giveLamps_out (r : Nat → Bool) (c : Colour) (f m : Nat) (o : LampMode) : (s.giveLamps r c f m o).out = s.out :=
    rfl
@[simp] theorem State.giveLamps_link (r : Nat → Bool) (c : Colour) (f m : Nat) (o : LampMode) : (s.giveLamps r c f m o).link = s.link :=
    rfl
@[simp] theorem State.giveLamps_free (r : Nat → Bool) (c : Colour) (f m : Nat) (o : LampMode) : (s.giveLamps r c f m o).free = s.free :=
    rfl
@[simp] theorem State.giveLamps_pending (r : Nat → Bool) (c : Colour) (f m : Nat) (o : LampMode) : (s.giveLamps r c f m o).pending = s.pending :=
    rfl

/-! ### idleLooks -/

@[simp] theorem State.idleLooks_phase (f : Nat) : (s.idleLooks f).phase = s.phase := rfl
@[simp] theorem State.idleLooks_baud (f : Nat) : (s.idleLooks f).baud = s.baud := rfl
@[simp] theorem State.idleLooks_clock (f : Nat) : (s.idleLooks f).clock = s.clock := rfl
@[simp] theorem State.idleLooks_store (f : Nat) : (s.idleLooks f).store = s.store := rfl
@[simp] theorem State.idleLooks_seq (f : Nat) : (s.idleLooks f).seq = s.seq := rfl
@[simp] theorem State.idleLooks_jets (f : Nat) : (s.idleLooks f).jets = s.jets := rfl
@[simp] theorem State.idleLooks_water (f : Nat) : (s.idleLooks f).water = s.water := rfl
@[simp] theorem State.idleLooks_wind (f : Nat) : (s.idleLooks f).wind = s.wind := rfl
@[simp] theorem State.idleLooks_audio (f : Nat) : (s.idleLooks f).audio = s.audio := rfl
@[simp] theorem State.idleLooks_flash (f : Nat) : (s.idleLooks f).flash = s.flash := rfl
@[simp] theorem State.idleLooks_trip (f : Nat) : (s.idleLooks f).trip = s.trip := rfl
@[simp] theorem State.idleLooks_out (f : Nat) : (s.idleLooks f).out = s.out := rfl
@[simp] theorem State.idleLooks_link (f : Nat) : (s.idleLooks f).link = s.link := rfl
@[simp] theorem State.idleLooks_free (f : Nat) : (s.idleLooks f).free = s.free := rfl
@[simp] theorem State.idleLooks_pending (f : Nat) : (s.idleLooks f).pending = s.pending := rfl

/-! ### onStream -/

@[simp] theorem State.onStream_phase (i : Fin 4) (f : Stream → Stream) : (s.onStream i f).phase = s.phase := rfl
@[simp] theorem State.onStream_baud (i : Fin 4) (f : Stream → Stream) : (s.onStream i f).baud = s.baud := rfl
@[simp] theorem State.onStream_clock (i : Fin 4) (f : Stream → Stream) : (s.onStream i f).clock = s.clock := rfl
@[simp] theorem State.onStream_store (i : Fin 4) (f : Stream → Stream) : (s.onStream i f).store = s.store := rfl
@[simp] theorem State.onStream_seq (i : Fin 4) (f : Stream → Stream) : (s.onStream i f).seq = s.seq := rfl
@[simp] theorem State.onStream_jets (i : Fin 4) (f : Stream → Stream) : (s.onStream i f).jets = s.jets := rfl
@[simp] theorem State.onStream_water (i : Fin 4) (f : Stream → Stream) : (s.onStream i f).water = s.water := rfl
@[simp] theorem State.onStream_wind (i : Fin 4) (f : Stream → Stream) : (s.onStream i f).wind = s.wind := rfl
@[simp] theorem State.onStream_light (i : Fin 4) (f : Stream → Stream) : (s.onStream i f).light = s.light := rfl
@[simp] theorem State.onStream_flash (i : Fin 4) (f : Stream → Stream) : (s.onStream i f).flash = s.flash := rfl
@[simp] theorem State.onStream_trip (i : Fin 4) (f : Stream → Stream) : (s.onStream i f).trip = s.trip := rfl
@[simp] theorem State.onStream_out (i : Fin 4) (f : Stream → Stream) : (s.onStream i f).out = s.out := rfl
@[simp] theorem State.onStream_link (i : Fin 4) (f : Stream → Stream) : (s.onStream i f).link = s.link := rfl
@[simp] theorem State.onStream_free (i : Fin 4) (f : Stream → Stream) : (s.onStream i f).free = s.free := rfl
@[simp] theorem State.onStream_pending (i : Fin 4) (f : Stream → Stream) : (s.onStream i f).pending = s.pending := rfl

/-! ### onStreams -/

@[simp] theorem State.onStreams_phase (f : Stream → Stream) : (s.onStreams f).phase = s.phase := rfl
@[simp] theorem State.onStreams_baud (f : Stream → Stream) : (s.onStreams f).baud = s.baud := rfl
@[simp] theorem State.onStreams_clock (f : Stream → Stream) : (s.onStreams f).clock = s.clock := rfl
@[simp] theorem State.onStreams_store (f : Stream → Stream) : (s.onStreams f).store = s.store := rfl
@[simp] theorem State.onStreams_seq (f : Stream → Stream) : (s.onStreams f).seq = s.seq := rfl
@[simp] theorem State.onStreams_jets (f : Stream → Stream) : (s.onStreams f).jets = s.jets := rfl
@[simp] theorem State.onStreams_water (f : Stream → Stream) : (s.onStreams f).water = s.water := rfl
@[simp] theorem State.onStreams_wind (f : Stream → Stream) : (s.onStreams f).wind = s.wind := rfl
@[simp] theorem State.onStreams_light (f : Stream → Stream) : (s.onStreams f).light = s.light := rfl
@[simp] theorem State.onStreams_flash (f : Stream → Stream) : (s.onStreams f).flash = s.flash := rfl
@[simp] theorem State.onStreams_trip (f : Stream → Stream) : (s.onStreams f).trip = s.trip := rfl
@[simp] theorem State.onStreams_out (f : Stream → Stream) : (s.onStreams f).out = s.out := rfl
@[simp] theorem State.onStreams_link (f : Stream → Stream) : (s.onStreams f).link = s.link := rfl
@[simp] theorem State.onStreams_free (f : Stream → Stream) : (s.onStreams f).free = s.free := rfl
@[simp] theorem State.onStreams_pending (f : Stream → Stream) : (s.onStreams f).pending = s.pending := rfl

/-! ### discardRead -/

@[simp] theorem State.discardRead_phase (i : Fin 4) : (s.discardRead i).phase = s.phase := rfl
@[simp] theorem State.discardRead_baud (i : Fin 4) : (s.discardRead i).baud = s.baud := rfl
@[simp] theorem State.discardRead_clock (i : Fin 4) : (s.discardRead i).clock = s.clock := rfl
@[simp] theorem State.discardRead_store (i : Fin 4) : (s.discardRead i).store = s.store := rfl
@[simp] theorem State.discardRead_seq (i : Fin 4) : (s.discardRead i).seq = s.seq := rfl
@[simp] theorem State.discardRead_jets (i : Fin 4) : (s.discardRead i).jets = s.jets := rfl
@[simp] theorem State.discardRead_water (i : Fin 4) : (s.discardRead i).water = s.water := rfl
@[simp] theorem State.discardRead_wind (i : Fin 4) : (s.discardRead i).wind = s.wind := rfl
@[simp] theorem State.discardRead_light (i : Fin 4) : (s.discardRead i).light = s.light := rfl
@[simp] theorem State.discardRead_flash (i : Fin 4) : (s.discardRead i).flash = s.flash := rfl
@[simp] theorem State.discardRead_trip (i : Fin 4) : (s.discardRead i).trip = s.trip := rfl
@[simp] theorem State.discardRead_out (i : Fin 4) : (s.discardRead i).out = s.out := rfl
@[simp] theorem State.discardRead_link (i : Fin 4) : (s.discardRead i).link = s.link := rfl
@[simp] theorem State.discardRead_free (i : Fin 4) : (s.discardRead i).free = s.free := rfl
@[simp] theorem State.discardRead_pending (i : Fin 4) : (s.discardRead i).pending = s.pending := rfl

/-! ### idleStream -/

@[simp] theorem State.idleStream_phase (i : Fin 4) : (s.idleStream i).phase = s.phase := rfl
@[simp] theorem State.idleStream_baud (i : Fin 4) : (s.idleStream i).baud = s.baud := rfl
@[simp] theorem State.idleStream_clock (i : Fin 4) : (s.idleStream i).clock = s.clock := rfl
@[simp] theorem State.idleStream_store (i : Fin 4) : (s.idleStream i).store = s.store := rfl
@[simp] theorem State.idleStream_seq (i : Fin 4) : (s.idleStream i).seq = s.seq := rfl
@[simp] theorem State.idleStream_jets (i : Fin 4) : (s.idleStream i).jets = s.jets := rfl
@[simp] theorem State.idleStream_water (i : Fin 4) : (s.idleStream i).water = s.water := rfl
@[simp] theorem State.idleStream_wind (i : Fin 4) : (s.idleStream i).wind = s.wind := rfl
@[simp] theorem State.idleStream_light (i : Fin 4) : (s.idleStream i).light = s.light := rfl
@[simp] theorem State.idleStream_flash (i : Fin 4) : (s.idleStream i).flash = s.flash := rfl
@[simp] theorem State.idleStream_trip (i : Fin 4) : (s.idleStream i).trip = s.trip := rfl
@[simp] theorem State.idleStream_out (i : Fin 4) : (s.idleStream i).out = s.out := rfl
@[simp] theorem State.idleStream_link (i : Fin 4) : (s.idleStream i).link = s.link := rfl
@[simp] theorem State.idleStream_free (i : Fin 4) : (s.idleStream i).free = s.free := rfl
@[simp] theorem State.idleStream_pending (i : Fin 4) : (s.idleStream i).pending = s.pending := rfl

/-! ### idleStreams -/

@[simp] theorem State.idleStreams_phase : (s.idleStreams).phase = s.phase := rfl
@[simp] theorem State.idleStreams_baud : (s.idleStreams).baud = s.baud := rfl
@[simp] theorem State.idleStreams_clock : (s.idleStreams).clock = s.clock := rfl
@[simp] theorem State.idleStreams_store : (s.idleStreams).store = s.store := rfl
@[simp] theorem State.idleStreams_seq : (s.idleStreams).seq = s.seq := rfl
@[simp] theorem State.idleStreams_jets : (s.idleStreams).jets = s.jets := rfl
@[simp] theorem State.idleStreams_water : (s.idleStreams).water = s.water := rfl
@[simp] theorem State.idleStreams_wind : (s.idleStreams).wind = s.wind := rfl
@[simp] theorem State.idleStreams_light : (s.idleStreams).light = s.light := rfl
@[simp] theorem State.idleStreams_flash : (s.idleStreams).flash = s.flash := rfl
@[simp] theorem State.idleStreams_trip : (s.idleStreams).trip = s.trip := rfl
@[simp] theorem State.idleStreams_out : (s.idleStreams).out = s.out := rfl
@[simp] theorem State.idleStreams_link : (s.idleStreams).link = s.link := rfl
@[simp] theorem State.idleStreams_free : (s.idleStreams).free = s.free := rfl
@[simp] theorem State.idleStreams_pending : (s.idleStreams).pending = s.pending := rfl

/-! ### startRead -/

@[simp] theorem State.startRead_phase (i : Fin 4) : (s.startRead i).phase = s.phase := rfl
@[simp] theorem State.startRead_baud (i : Fin 4) : (s.startRead i).baud = s.baud := rfl
@[simp] theorem State.startRead_clock (i : Fin 4) : (s.startRead i).clock = s.clock := rfl
@[simp] theorem State.startRead_store (i : Fin 4) : (s.startRead i).store = s.store := rfl
@[simp] theorem State.startRead_seq (i : Fin 4) : (s.startRead i).seq = s.seq := rfl
@[simp] theorem State.startRead_jets (i : Fin 4) : (s.startRead i).jets = s.jets := rfl
@[simp] theorem State.startRead_water (i : Fin 4) : (s.startRead i).water = s.water := rfl
@[simp] theorem State.startRead_wind (i : Fin 4) : (s.startRead i).wind = s.wind := rfl
@[simp] theorem State.startRead_light (i : Fin 4) : (s.startRead i).light = s.light := rfl
@[simp] theorem State.startRead_flash (i : Fin 4) : (s.startRead i).flash = s.flash := rfl
@[simp] theorem State.startRead_trip (i : Fin 4) : (s.startRead i).trip = s.trip := rfl
@[simp] theorem State.startRead_out (i : Fin 4) : (s.startRead i).out = s.out := rfl
@[simp] theorem State.startRead_link (i : Fin 4) : (s.startRead i).link = s.link := rfl
@[simp] theorem State.startRead_free (i : Fin 4) : (s.startRead i).free = s.free := rfl
@[simp] theorem State.startRead_pending (i : Fin 4) : (s.startRead i).pending = s.pending := rfl

/-! ### splitPool -/

@[simp] theorem State.splitPool_phase (n : Nat) : (s.splitPool n).phase = s.phase := rfl
@[simp] theorem State.splitPool_baud (n : Nat) : (s.splitPool n).baud = s.baud := rfl
@[simp] theorem State.splitPool_clock (n : Nat) : (s.splitPool n).clock = s.clock := rfl
@[simp] theorem State.splitPool_store (n : Nat) : (s.splitPool n).store = s.store := rfl
@[simp] theorem State.splitPool_seq (n : Nat) : (s.splitPool n).seq = s.seq := rfl
@[simp] theorem State.splitPool_jets (n : Nat) : (s.splitPool n).jets = s.jets := rfl
@[simp] theorem State.splitPool_water (n : Nat) : (s.splitPool n).water = s.water := rfl
@[simp] theorem State.splitPool_wind (n : Nat) : (s.splitPool n).wind = s.wind := rfl
@[simp] theorem State.splitPool_light (n : Nat) : (s.splitPool n).light = s.light := rfl
@[simp] theorem State.splitPool_flash (n : Nat) : (s.splitPool n).flash = s.flash := rfl
@[simp] theorem State.splitPool_trip (n : Nat) : (s.splitPool n).trip = s.trip := rfl
@[simp] theorem State.splitPool_out (n : Nat) : (s.splitPool n).out = s.out := rfl
@[simp] theorem State.splitPool_link (n : Nat) : (s.splitPool n).link = s.link := rfl
@[simp] theorem State.splitPool_free (n : Nat) : (s.splitPool n).free = s.free := rfl
@[simp] theorem State.splitPool_pending (n : Nat) : (s.splitPool n).pending = s.pending := rfl

/-! ### clearAudioCounts -/

@[simp] theorem State.clearAudioCounts_phase : (s.clearAudioCounts).phase = s.phase := rfl
@[simp] theorem State.clearAudioCounts_baud : (s.clearAudioCounts).baud = s.baud := rfl
@[simp] theorem State.clearAudioCounts_clock : (s.clearAudioCounts).clock = s.clock := rfl
@[simp] theorem State.clearAudioCounts_store : (s.clearAudioCounts).store = s.store := rfl
@[simp] theorem State.clearAudioCounts_seq : (s.clearAudioCounts).seq = s.seq := rfl
@[simp] theorem State.clearAudioCounts_jets : (s.clearAudioCounts).jets = s.jets := rfl
@[simp] theorem State.clearAudioCounts_water : (s.clearAudioCounts).water = s.water := rfl
@[simp] theorem State.clearAudioCounts_wind : (s.clearAudioCounts).wind = s.wind := rfl
@[simp] theorem State.clearAudioCounts_light : (s.clearAudioCounts).light = s.light := rfl
@[simp] theorem State.clearAudioCounts_flash : (s.clearAudioCounts).flash = s.flash := rfl
@[simp] theorem State.clearAudioCounts_trip : (s.clearAudioCounts).trip = s.trip := rfl
@[simp] theorem State.clearAudioCounts_out : (s.clearAudioCounts).out = s.out := rfl
@[simp] theorem State.clearAudioCounts_link : (s.clearAudioCounts).link = s.link := rfl
@[simp] theorem State.clearAudioCounts_free : (s.clearAudioCounts).free = s.free := rfl
@[simp] theorem State.clearAudioCounts_pending : (s.clearAudioCounts).pending = s.pending := rfl

/-! ### setTrack -/

@[simp] theorem State.setTrack_phase (n : Fin 64) (t : Option Track) : (s.setTrack n t).phase = s.phase := rfl
@[simp] theorem State.setTrack_baud (n : Fin 64) (t : Option Track) : (s.setTrack n t).baud = s.baud := rfl
@[simp] theorem State.setTrack_clock (n : Fin 64) (t : Option Track) : (s.setTrack n t).clock = s.clock := rfl
@[simp] theorem State.setTrack_store (n : Fin 64) (t : Option Track) : (s.setTrack n t).store = s.store := rfl
@[simp] theorem State.setTrack_seq (n : Fin 64) (t : Option Track) : (s.setTrack n t).seq = s.seq := rfl
@[simp] theorem State.setTrack_jets (n : Fin 64) (t : Option Track) : (s.setTrack n t).jets = s.jets := rfl
@[simp] theorem State.setTrack_water (n : Fin 64) (t : Option Track) : (s.setTrack n t).water = s.water := rfl
@[simp] theorem State.setTrack_wind (n : Fin 64) (t : Option Track) : (s.setTrack n t).wind = s.wind := rfl
@[simp] theorem State.setTrack_light (n : Fin 64) (t : Option Track) : (s.setTrack n t).light = s.light := rfl
@[simp] theorem State.setTrack_flash (n : Fin 64) (t : Option Track) : (s.setTrack n t).flash = s.flash := rfl
@[simp] theorem State.setTrack_trip (n : Fin 64) (t : Option Track) : (s.setTrack n t).trip = s.trip := rfl
@[simp] theorem State.setTrack_out (n : Fin 64) (t : Option Track) : (s.setTrack n t).out = s.out := rfl
@[simp] theorem State.setTrack_link (n : Fin 64) (t : Option Track) : (s.setTrack n t).link = s.link := rfl
@[simp] theorem State.setTrack_free (n : Fin 64) (t : Option Track) : (s.setTrack n t).free = s.free := rfl
@[simp] theorem State.setTrack_pending (n : Fin 64) (t : Option Track) : (s.setTrack n t).pending = s.pending := rfl

/-! ### audioNotice -/

@[simp] theorem State.audioNotice_phase (c : AudioCause) (i : Fin 4) (n : Nat) (e : Int) : (s.audioNotice c i n e).phase = s.phase :=
    rfl
@[simp] theorem State.audioNotice_baud (c : AudioCause) (i : Fin 4) (n : Nat) (e : Int) : (s.audioNotice c i n e).baud = s.baud :=
    rfl
@[simp] theorem State.audioNotice_clock (c : AudioCause) (i : Fin 4) (n : Nat) (e : Int) : (s.audioNotice c i n e).clock = s.clock :=
    rfl
@[simp] theorem State.audioNotice_store (c : AudioCause) (i : Fin 4) (n : Nat) (e : Int) : (s.audioNotice c i n e).store = s.store :=
    rfl
@[simp] theorem State.audioNotice_seq (c : AudioCause) (i : Fin 4) (n : Nat) (e : Int) : (s.audioNotice c i n e).seq = s.seq :=
    rfl
@[simp] theorem State.audioNotice_jets (c : AudioCause) (i : Fin 4) (n : Nat) (e : Int) : (s.audioNotice c i n e).jets = s.jets :=
    rfl
@[simp] theorem State.audioNotice_water (c : AudioCause) (i : Fin 4) (n : Nat) (e : Int) : (s.audioNotice c i n e).water = s.water :=
    rfl
@[simp] theorem State.audioNotice_wind (c : AudioCause) (i : Fin 4) (n : Nat) (e : Int) : (s.audioNotice c i n e).wind = s.wind :=
    rfl
@[simp] theorem State.audioNotice_light (c : AudioCause) (i : Fin 4) (n : Nat) (e : Int) : (s.audioNotice c i n e).light = s.light :=
    rfl
@[simp] theorem State.audioNotice_audio (c : AudioCause) (i : Fin 4) (n : Nat) (e : Int) : (s.audioNotice c i n e).audio = s.audio :=
    rfl
@[simp] theorem State.audioNotice_flash (c : AudioCause) (i : Fin 4) (n : Nat) (e : Int) : (s.audioNotice c i n e).flash = s.flash :=
    rfl
@[simp] theorem State.audioNotice_trip (c : AudioCause) (i : Fin 4) (n : Nat) (e : Int) : (s.audioNotice c i n e).trip = s.trip :=
    rfl
@[simp] theorem State.audioNotice_out (c : AudioCause) (i : Fin 4) (n : Nat) (e : Int) : (s.audioNotice c i n e).out = s.out :=
    rfl
@[simp] theorem State.audioNotice_free (c : AudioCause) (i : Fin 4) (n : Nat) (e : Int) : (s.audioNotice c i n e).free = s.free :=
    rfl
@[simp] theorem State.audioNotice_pending (c : AudioCause) (i : Fin 4) (n : Nat) (e : Int) : (s.audioNotice c i n e).pending = s.pending :=
    rfl

/-! ### stateNotice -/

@[simp] theorem State.stateNotice_phase (n : Option Nat) (p : SeqState) : (s.stateNotice n p).phase = s.phase := rfl
@[simp] theorem State.stateNotice_baud (n : Option Nat) (p : SeqState) : (s.stateNotice n p).baud = s.baud := rfl
@[simp] theorem State.stateNotice_clock (n : Option Nat) (p : SeqState) : (s.stateNotice n p).clock = s.clock := rfl
@[simp] theorem State.stateNotice_store (n : Option Nat) (p : SeqState) : (s.stateNotice n p).store = s.store := rfl
@[simp] theorem State.stateNotice_seq (n : Option Nat) (p : SeqState) : (s.stateNotice n p).seq = s.seq := rfl
@[simp] theorem State.stateNotice_jets (n : Option Nat) (p : SeqState) : (s.stateNotice n p).jets = s.jets := rfl
@[simp] theorem State.stateNotice_water (n : Option Nat) (p : SeqState) : (s.stateNotice n p).water = s.water := rfl
@[simp] theorem State.stateNotice_wind (n : Option Nat) (p : SeqState) : (s.stateNotice n p).wind = s.wind := rfl
@[simp] theorem State.stateNotice_light (n : Option Nat) (p : SeqState) : (s.stateNotice n p).light = s.light := rfl
@[simp] theorem State.stateNotice_audio (n : Option Nat) (p : SeqState) : (s.stateNotice n p).audio = s.audio := rfl
@[simp] theorem State.stateNotice_flash (n : Option Nat) (p : SeqState) : (s.stateNotice n p).flash = s.flash := rfl
@[simp] theorem State.stateNotice_trip (n : Option Nat) (p : SeqState) : (s.stateNotice n p).trip = s.trip := rfl
@[simp] theorem State.stateNotice_out (n : Option Nat) (p : SeqState) : (s.stateNotice n p).out = s.out := rfl
@[simp] theorem State.stateNotice_free (n : Option Nat) (p : SeqState) : (s.stateNotice n p).free = s.free := rfl
@[simp] theorem State.stateNotice_pending (n : Option Nat) (p : SeqState) : (s.stateNotice n p).pending = s.pending :=
    rfl

/-! ### enterState -/

@[simp] theorem State.enterState_phase (n : SeqState) : (s.enterState n).phase = s.phase := rfl
@[simp] theorem State.enterState_baud (n : SeqState) : (s.enterState n).baud = s.baud := rfl
@[simp] theorem State.enterState_clock (n : SeqState) : (s.enterState n).clock = s.clock := rfl
@[simp] theorem State.enterState_store (n : SeqState) : (s.enterState n).store = s.store := rfl
@[simp] theorem State.enterState_jets (n : SeqState) : (s.enterState n).jets = s.jets := rfl
@[simp] theorem State.enterState_water (n : SeqState) : (s.enterState n).water = s.water := rfl
@[simp] theorem State.enterState_wind (n : SeqState) : (s.enterState n).wind = s.wind := rfl
@[simp] theorem State.enterState_light (n : SeqState) : (s.enterState n).light = s.light := rfl
@[simp] theorem State.enterState_audio (n : SeqState) : (s.enterState n).audio = s.audio := rfl
@[simp] theorem State.enterState_flash (n : SeqState) : (s.enterState n).flash = s.flash := rfl
@[simp] theorem State.enterState_trip (n : SeqState) : (s.enterState n).trip = s.trip := rfl
@[simp] theorem State.enterState_out (n : SeqState) : (s.enterState n).out = s.out := rfl
@[simp] theorem State.enterState_free (n : SeqState) : (s.enterState n).free = s.free := rfl
@[simp] theorem State.enterState_pending (n : SeqState) : (s.enterState n).pending = s.pending := rfl

/-! ### emptyQueue -/

@[simp] theorem State.emptyQueue_phase : (s.emptyQueue).phase = s.phase := rfl
@[simp] theorem State.emptyQueue_baud : (s.emptyQueue).baud = s.baud := rfl
@[simp] theorem State.emptyQueue_clock : (s.emptyQueue).clock = s.clock := rfl
@[simp] theorem State.emptyQueue_store : (s.emptyQueue).store = s.store := rfl
@[simp] theorem State.emptyQueue_jets : (s.emptyQueue).jets = s.jets := rfl
@[simp] theorem State.emptyQueue_water : (s.emptyQueue).water = s.water := rfl
@[simp] theorem State.emptyQueue_wind : (s.emptyQueue).wind = s.wind := rfl
@[simp] theorem State.emptyQueue_light : (s.emptyQueue).light = s.light := rfl
@[simp] theorem State.emptyQueue_audio : (s.emptyQueue).audio = s.audio := rfl
@[simp] theorem State.emptyQueue_flash : (s.emptyQueue).flash = s.flash := rfl
@[simp] theorem State.emptyQueue_trip : (s.emptyQueue).trip = s.trip := rfl
@[simp] theorem State.emptyQueue_out : (s.emptyQueue).out = s.out := rfl
@[simp] theorem State.emptyQueue_link : (s.emptyQueue).link = s.link := rfl
@[simp] theorem State.emptyQueue_free : (s.emptyQueue).free = s.free := rfl
@[simp] theorem State.emptyQueue_pending : (s.emptyQueue).pending = s.pending := rfl

/-! ### withReason -/

@[simp] theorem State.withReason_phase (r : EndReason) : (s.withReason r).phase = s.phase := rfl
@[simp] theorem State.withReason_baud (r : EndReason) : (s.withReason r).baud = s.baud := rfl
@[simp] theorem State.withReason_clock (r : EndReason) : (s.withReason r).clock = s.clock := rfl
@[simp] theorem State.withReason_store (r : EndReason) : (s.withReason r).store = s.store := rfl
@[simp] theorem State.withReason_jets (r : EndReason) : (s.withReason r).jets = s.jets := rfl
@[simp] theorem State.withReason_water (r : EndReason) : (s.withReason r).water = s.water := rfl
@[simp] theorem State.withReason_wind (r : EndReason) : (s.withReason r).wind = s.wind := rfl
@[simp] theorem State.withReason_light (r : EndReason) : (s.withReason r).light = s.light := rfl
@[simp] theorem State.withReason_audio (r : EndReason) : (s.withReason r).audio = s.audio := rfl
@[simp] theorem State.withReason_flash (r : EndReason) : (s.withReason r).flash = s.flash := rfl
@[simp] theorem State.withReason_trip (r : EndReason) : (s.withReason r).trip = s.trip := rfl
@[simp] theorem State.withReason_out (r : EndReason) : (s.withReason r).out = s.out := rfl
@[simp] theorem State.withReason_link (r : EndReason) : (s.withReason r).link = s.link := rfl
@[simp] theorem State.withReason_free (r : EndReason) : (s.withReason r).free = s.free := rfl
@[simp] theorem State.withReason_pending (r : EndReason) : (s.withReason r).pending = s.pending := rfl

/-! ### changeFlags -/

@[simp] theorem State.changeFlags_phase (c d : Half) : (s.changeFlags c d).phase = s.phase := rfl
@[simp] theorem State.changeFlags_baud (c d : Half) : (s.changeFlags c d).baud = s.baud := rfl
@[simp] theorem State.changeFlags_clock (c d : Half) : (s.changeFlags c d).clock = s.clock := rfl
@[simp] theorem State.changeFlags_store (c d : Half) : (s.changeFlags c d).store = s.store := rfl
@[simp] theorem State.changeFlags_jets (c d : Half) : (s.changeFlags c d).jets = s.jets := rfl
@[simp] theorem State.changeFlags_water (c d : Half) : (s.changeFlags c d).water = s.water := rfl
@[simp] theorem State.changeFlags_wind (c d : Half) : (s.changeFlags c d).wind = s.wind := rfl
@[simp] theorem State.changeFlags_light (c d : Half) : (s.changeFlags c d).light = s.light := rfl
@[simp] theorem State.changeFlags_audio (c d : Half) : (s.changeFlags c d).audio = s.audio := rfl
@[simp] theorem State.changeFlags_flash (c d : Half) : (s.changeFlags c d).flash = s.flash := rfl
@[simp] theorem State.changeFlags_trip (c d : Half) : (s.changeFlags c d).trip = s.trip := rfl
@[simp] theorem State.changeFlags_out (c d : Half) : (s.changeFlags c d).out = s.out := rfl
@[simp] theorem State.changeFlags_link (c d : Half) : (s.changeFlags c d).link = s.link := rfl
@[simp] theorem State.changeFlags_free (c d : Half) : (s.changeFlags c d).free = s.free := rfl
@[simp] theorem State.changeFlags_pending (c d : Half) : (s.changeFlags c d).pending = s.pending := rfl

/-! ### latchEdges -/

@[simp] theorem State.latchEdges_phase (b : State) : (s.latchEdges b).phase = s.phase := rfl
@[simp] theorem State.latchEdges_baud (b : State) : (s.latchEdges b).baud = s.baud := rfl
@[simp] theorem State.latchEdges_clock (b : State) : (s.latchEdges b).clock = s.clock := rfl
@[simp] theorem State.latchEdges_store (b : State) : (s.latchEdges b).store = s.store := rfl
@[simp] theorem State.latchEdges_seq (b : State) : (s.latchEdges b).seq = s.seq := rfl
@[simp] theorem State.latchEdges_jets (b : State) : (s.latchEdges b).jets = s.jets := rfl
@[simp] theorem State.latchEdges_water (b : State) : (s.latchEdges b).water = s.water := rfl
@[simp] theorem State.latchEdges_wind (b : State) : (s.latchEdges b).wind = s.wind := rfl
@[simp] theorem State.latchEdges_light (b : State) : (s.latchEdges b).light = s.light := rfl
@[simp] theorem State.latchEdges_audio (b : State) : (s.latchEdges b).audio = s.audio := rfl
@[simp] theorem State.latchEdges_flash (b : State) : (s.latchEdges b).flash = s.flash := rfl
@[simp] theorem State.latchEdges_out (b : State) : (s.latchEdges b).out = s.out := rfl
@[simp] theorem State.latchEdges_link (b : State) : (s.latchEdges b).link = s.link := rfl
@[simp] theorem State.latchEdges_free (b : State) : (s.latchEdges b).free = s.free := rfl
@[simp] theorem State.latchEdges_pending (b : State) : (s.latchEdges b).pending = s.pending := rfl

/-! ### tripNotice -/

@[simp] theorem State.tripNotice_phase (a : Activation) : (s.tripNotice a).phase = s.phase := rfl
@[simp] theorem State.tripNotice_baud (a : Activation) : (s.tripNotice a).baud = s.baud := rfl
@[simp] theorem State.tripNotice_clock (a : Activation) : (s.tripNotice a).clock = s.clock := rfl
@[simp] theorem State.tripNotice_store (a : Activation) : (s.tripNotice a).store = s.store := rfl
@[simp] theorem State.tripNotice_seq (a : Activation) : (s.tripNotice a).seq = s.seq := rfl
@[simp] theorem State.tripNotice_jets (a : Activation) : (s.tripNotice a).jets = s.jets := rfl
@[simp] theorem State.tripNotice_water (a : Activation) : (s.tripNotice a).water = s.water := rfl
@[simp] theorem State.tripNotice_wind (a : Activation) : (s.tripNotice a).wind = s.wind := rfl
@[simp] theorem State.tripNotice_light (a : Activation) : (s.tripNotice a).light = s.light := rfl
@[simp] theorem State.tripNotice_audio (a : Activation) : (s.tripNotice a).audio = s.audio := rfl
@[simp] theorem State.tripNotice_flash (a : Activation) : (s.tripNotice a).flash = s.flash := rfl
@[simp] theorem State.tripNotice_trip (a : Activation) : (s.tripNotice a).trip = s.trip := rfl
@[simp] theorem State.tripNotice_out (a : Activation) : (s.tripNotice a).out = s.out := rfl
@[simp] theorem State.tripNotice_free (a : Activation) : (s.tripNotice a).free = s.free := rfl
@[simp] theorem State.tripNotice_pending (a : Activation) : (s.tripNotice a).pending = s.pending := rfl

/-! ### seedLatches -/

@[simp] theorem State.seedLatches_phase : (s.seedLatches).phase = s.phase := rfl
@[simp] theorem State.seedLatches_baud : (s.seedLatches).baud = s.baud := rfl
@[simp] theorem State.seedLatches_clock : (s.seedLatches).clock = s.clock := rfl
@[simp] theorem State.seedLatches_store : (s.seedLatches).store = s.store := rfl
@[simp] theorem State.seedLatches_seq : (s.seedLatches).seq = s.seq := rfl
@[simp] theorem State.seedLatches_jets : (s.seedLatches).jets = s.jets := rfl
@[simp] theorem State.seedLatches_water : (s.seedLatches).water = s.water := rfl
@[simp] theorem State.seedLatches_wind : (s.seedLatches).wind = s.wind := rfl
@[simp] theorem State.seedLatches_light : (s.seedLatches).light = s.light := rfl
@[simp] theorem State.seedLatches_audio : (s.seedLatches).audio = s.audio := rfl
@[simp] theorem State.seedLatches_flash : (s.seedLatches).flash = s.flash := rfl
@[simp] theorem State.seedLatches_out : (s.seedLatches).out = s.out := rfl
@[simp] theorem State.seedLatches_link : (s.seedLatches).link = s.link := rfl
@[simp] theorem State.seedLatches_free : (s.seedLatches).free = s.free := rfl
@[simp] theorem State.seedLatches_pending : (s.seedLatches).pending = s.pending := rfl

/-! ### seedSettings -/

@[simp] theorem State.seedSettings_phase (xs : List (Fin 24 × ConditionCfg)) : (s.seedSettings xs).phase = s.phase :=
    rfl
@[simp] theorem State.seedSettings_baud (xs : List (Fin 24 × ConditionCfg)) : (s.seedSettings xs).baud = s.baud := rfl
@[simp] theorem State.seedSettings_clock (xs : List (Fin 24 × ConditionCfg)) : (s.seedSettings xs).clock = s.clock :=
    rfl
@[simp] theorem State.seedSettings_store (xs : List (Fin 24 × ConditionCfg)) : (s.seedSettings xs).store = s.store :=
    rfl
@[simp] theorem State.seedSettings_seq (xs : List (Fin 24 × ConditionCfg)) : (s.seedSettings xs).seq = s.seq := rfl
@[simp] theorem State.seedSettings_jets (xs : List (Fin 24 × ConditionCfg)) : (s.seedSettings xs).jets = s.jets := rfl
@[simp] theorem State.seedSettings_water (xs : List (Fin 24 × ConditionCfg)) : (s.seedSettings xs).water = s.water :=
    rfl
@[simp] theorem State.seedSettings_wind (xs : List (Fin 24 × ConditionCfg)) : (s.seedSettings xs).wind = s.wind := rfl
@[simp] theorem State.seedSettings_light (xs : List (Fin 24 × ConditionCfg)) : (s.seedSettings xs).light = s.light :=
    rfl
@[simp] theorem State.seedSettings_audio (xs : List (Fin 24 × ConditionCfg)) : (s.seedSettings xs).audio = s.audio :=
    rfl
@[simp] theorem State.seedSettings_flash (xs : List (Fin 24 × ConditionCfg)) : (s.seedSettings xs).flash = s.flash :=
    rfl
@[simp] theorem State.seedSettings_out (xs : List (Fin 24 × ConditionCfg)) : (s.seedSettings xs).out = s.out := rfl
@[simp] theorem State.seedSettings_link (xs : List (Fin 24 × ConditionCfg)) : (s.seedSettings xs).link = s.link := rfl
@[simp] theorem State.seedSettings_free (xs : List (Fin 24 × ConditionCfg)) : (s.seedSettings xs).free = s.free := rfl
@[simp] theorem State.seedSettings_pending (xs : List (Fin 24 × ConditionCfg)) : (s.seedSettings xs).pending = s.pending :=
    rfl

/-! ### onCondition -/

@[simp] theorem State.onCondition_phase (c : Fin 24) (f : Condition → Condition) : (s.onCondition c f).phase = s.phase :=
    rfl
@[simp] theorem State.onCondition_baud (c : Fin 24) (f : Condition → Condition) : (s.onCondition c f).baud = s.baud :=
    rfl
@[simp] theorem State.onCondition_clock (c : Fin 24) (f : Condition → Condition) : (s.onCondition c f).clock = s.clock :=
    rfl
@[simp] theorem State.onCondition_store (c : Fin 24) (f : Condition → Condition) : (s.onCondition c f).store = s.store :=
    rfl
@[simp] theorem State.onCondition_seq (c : Fin 24) (f : Condition → Condition) : (s.onCondition c f).seq = s.seq :=
    rfl
@[simp] theorem State.onCondition_jets (c : Fin 24) (f : Condition → Condition) : (s.onCondition c f).jets = s.jets :=
    rfl
@[simp] theorem State.onCondition_water (c : Fin 24) (f : Condition → Condition) : (s.onCondition c f).water = s.water :=
    rfl
@[simp] theorem State.onCondition_wind (c : Fin 24) (f : Condition → Condition) : (s.onCondition c f).wind = s.wind :=
    rfl
@[simp] theorem State.onCondition_light (c : Fin 24) (f : Condition → Condition) : (s.onCondition c f).light = s.light :=
    rfl
@[simp] theorem State.onCondition_audio (c : Fin 24) (f : Condition → Condition) : (s.onCondition c f).audio = s.audio :=
    rfl
@[simp] theorem State.onCondition_flash (c : Fin 24) (f : Condition → Condition) : (s.onCondition c f).flash = s.flash :=
    rfl
@[simp] theorem State.onCondition_out (c : Fin 24) (f : Condition → Condition) : (s.onCondition c f).out = s.out :=
    rfl
@[simp] theorem State.onCondition_link (c : Fin 24) (f : Condition → Condition) : (s.onCondition c f).link = s.link :=
    rfl
@[simp] theorem State.onCondition_free (c : Fin 24) (f : Condition → Condition) : (s.onCondition c f).free = s.free :=
    rfl
@[simp] theorem State.onCondition_pending (c : Fin 24) (f : Condition → Condition) : (s.onCondition c f).pending = s.pending :=
    rfl

/-! ### onReaction -/

@[simp] theorem State.onReaction_phase (i : Fin 32) (f : Reaction → Reaction) : (s.onReaction i f).phase = s.phase :=
    rfl
@[simp] theorem State.onReaction_baud (i : Fin 32) (f : Reaction → Reaction) : (s.onReaction i f).baud = s.baud := rfl
@[simp] theorem State.onReaction_clock (i : Fin 32) (f : Reaction → Reaction) : (s.onReaction i f).clock = s.clock :=
    rfl
@[simp] theorem State.onReaction_store (i : Fin 32) (f : Reaction → Reaction) : (s.onReaction i f).store = s.store :=
    rfl
@[simp] theorem State.onReaction_seq (i : Fin 32) (f : Reaction → Reaction) : (s.onReaction i f).seq = s.seq := rfl
@[simp] theorem State.onReaction_jets (i : Fin 32) (f : Reaction → Reaction) : (s.onReaction i f).jets = s.jets := rfl
@[simp] theorem State.onReaction_water (i : Fin 32) (f : Reaction → Reaction) : (s.onReaction i f).water = s.water :=
    rfl
@[simp] theorem State.onReaction_wind (i : Fin 32) (f : Reaction → Reaction) : (s.onReaction i f).wind = s.wind := rfl
@[simp] theorem State.onReaction_light (i : Fin 32) (f : Reaction → Reaction) : (s.onReaction i f).light = s.light :=
    rfl
@[simp] theorem State.onReaction_audio (i : Fin 32) (f : Reaction → Reaction) : (s.onReaction i f).audio = s.audio :=
    rfl
@[simp] theorem State.onReaction_flash (i : Fin 32) (f : Reaction → Reaction) : (s.onReaction i f).flash = s.flash :=
    rfl
@[simp] theorem State.onReaction_out (i : Fin 32) (f : Reaction → Reaction) : (s.onReaction i f).out = s.out := rfl
@[simp] theorem State.onReaction_link (i : Fin 32) (f : Reaction → Reaction) : (s.onReaction i f).link = s.link := rfl
@[simp] theorem State.onReaction_free (i : Fin 32) (f : Reaction → Reaction) : (s.onReaction i f).free = s.free := rfl
@[simp] theorem State.onReaction_pending (i : Fin 32) (f : Reaction → Reaction) : (s.onReaction i f).pending = s.pending :=
    rfl

/-! ### rewriteReaction -/

@[simp] theorem State.rewriteReaction_phase (i : Fin 32) (c : ReactionCfg) : (s.rewriteReaction i c).phase = s.phase :=
    rfl
@[simp] theorem State.rewriteReaction_baud (i : Fin 32) (c : ReactionCfg) : (s.rewriteReaction i c).baud = s.baud :=
    rfl
@[simp] theorem State.rewriteReaction_clock (i : Fin 32) (c : ReactionCfg) : (s.rewriteReaction i c).clock = s.clock :=
    rfl
@[simp] theorem State.rewriteReaction_store (i : Fin 32) (c : ReactionCfg) : (s.rewriteReaction i c).store = s.store :=
    rfl
@[simp] theorem State.rewriteReaction_seq (i : Fin 32) (c : ReactionCfg) : (s.rewriteReaction i c).seq = s.seq := rfl
@[simp] theorem State.rewriteReaction_jets (i : Fin 32) (c : ReactionCfg) : (s.rewriteReaction i c).jets = s.jets :=
    rfl
@[simp] theorem State.rewriteReaction_water (i : Fin 32) (c : ReactionCfg) : (s.rewriteReaction i c).water = s.water :=
    rfl
@[simp] theorem State.rewriteReaction_wind (i : Fin 32) (c : ReactionCfg) : (s.rewriteReaction i c).wind = s.wind :=
    rfl
@[simp] theorem State.rewriteReaction_light (i : Fin 32) (c : ReactionCfg) : (s.rewriteReaction i c).light = s.light :=
    rfl
@[simp] theorem State.rewriteReaction_audio (i : Fin 32) (c : ReactionCfg) : (s.rewriteReaction i c).audio = s.audio :=
    rfl
@[simp] theorem State.rewriteReaction_flash (i : Fin 32) (c : ReactionCfg) : (s.rewriteReaction i c).flash = s.flash :=
    rfl
@[simp] theorem State.rewriteReaction_out (i : Fin 32) (c : ReactionCfg) : (s.rewriteReaction i c).out = s.out := rfl
@[simp] theorem State.rewriteReaction_link (i : Fin 32) (c : ReactionCfg) : (s.rewriteReaction i c).link = s.link :=
    rfl
@[simp] theorem State.rewriteReaction_free (i : Fin 32) (c : ReactionCfg) : (s.rewriteReaction i c).free = s.free :=
    rfl
@[simp] theorem State.rewriteReaction_pending (i : Fin 32) (c : ReactionCfg) : (s.rewriteReaction i c).pending = s.pending :=
    rfl

/-! ### modeSafe -/

@[simp] theorem State.modeSafe_phase : (s.modeSafe).phase = s.phase := rfl
@[simp] theorem State.modeSafe_baud : (s.modeSafe).baud = s.baud := rfl
@[simp] theorem State.modeSafe_clock : (s.modeSafe).clock = s.clock := rfl
@[simp] theorem State.modeSafe_store : (s.modeSafe).store = s.store := rfl
@[simp] theorem State.modeSafe_seq : (s.modeSafe).seq = s.seq := rfl
@[simp] theorem State.modeSafe_jets : (s.modeSafe).jets = s.jets := rfl
@[simp] theorem State.modeSafe_water : (s.modeSafe).water = s.water := rfl
@[simp] theorem State.modeSafe_wind : (s.modeSafe).wind = s.wind := rfl
@[simp] theorem State.modeSafe_light : (s.modeSafe).light = s.light := rfl
@[simp] theorem State.modeSafe_audio : (s.modeSafe).audio = s.audio := rfl
@[simp] theorem State.modeSafe_flash : (s.modeSafe).flash = s.flash := rfl
@[simp] theorem State.modeSafe_trip : (s.modeSafe).trip = s.trip := rfl
@[simp] theorem State.modeSafe_link : (s.modeSafe).link = s.link := rfl
@[simp] theorem State.modeSafe_free : (s.modeSafe).free = s.free := rfl
@[simp] theorem State.modeSafe_pending : (s.modeSafe).pending = s.pending := rfl

/-! ### modeLive -/

@[simp] theorem State.modeLive_phase : (s.modeLive).phase = s.phase := rfl
@[simp] theorem State.modeLive_baud : (s.modeLive).baud = s.baud := rfl
@[simp] theorem State.modeLive_clock : (s.modeLive).clock = s.clock := rfl
@[simp] theorem State.modeLive_store : (s.modeLive).store = s.store := rfl
@[simp] theorem State.modeLive_seq : (s.modeLive).seq = s.seq := rfl
@[simp] theorem State.modeLive_jets : (s.modeLive).jets = s.jets := rfl
@[simp] theorem State.modeLive_water : (s.modeLive).water = s.water := rfl
@[simp] theorem State.modeLive_wind : (s.modeLive).wind = s.wind := rfl
@[simp] theorem State.modeLive_light : (s.modeLive).light = s.light := rfl
@[simp] theorem State.modeLive_audio : (s.modeLive).audio = s.audio := rfl
@[simp] theorem State.modeLive_flash : (s.modeLive).flash = s.flash := rfl
@[simp] theorem State.modeLive_trip : (s.modeLive).trip = s.trip := rfl
@[simp] theorem State.modeLive_link : (s.modeLive).link = s.link := rfl
@[simp] theorem State.modeLive_free : (s.modeLive).free = s.free := rfl
@[simp] theorem State.modeLive_pending : (s.modeLive).pending = s.pending := rfl

/-! ### withHost -/

@[simp] theorem State.withHost_phase (h : BitVec 64) : (s.withHost h).phase = s.phase := rfl
@[simp] theorem State.withHost_baud (h : BitVec 64) : (s.withHost h).baud = s.baud := rfl
@[simp] theorem State.withHost_clock (h : BitVec 64) : (s.withHost h).clock = s.clock := rfl
@[simp] theorem State.withHost_store (h : BitVec 64) : (s.withHost h).store = s.store := rfl
@[simp] theorem State.withHost_seq (h : BitVec 64) : (s.withHost h).seq = s.seq := rfl
@[simp] theorem State.withHost_jets (h : BitVec 64) : (s.withHost h).jets = s.jets := rfl
@[simp] theorem State.withHost_water (h : BitVec 64) : (s.withHost h).water = s.water := rfl
@[simp] theorem State.withHost_wind (h : BitVec 64) : (s.withHost h).wind = s.wind := rfl
@[simp] theorem State.withHost_light (h : BitVec 64) : (s.withHost h).light = s.light := rfl
@[simp] theorem State.withHost_audio (h : BitVec 64) : (s.withHost h).audio = s.audio := rfl
@[simp] theorem State.withHost_flash (h : BitVec 64) : (s.withHost h).flash = s.flash := rfl
@[simp] theorem State.withHost_trip (h : BitVec 64) : (s.withHost h).trip = s.trip := rfl
@[simp] theorem State.withHost_link (h : BitVec 64) : (s.withHost h).link = s.link := rfl
@[simp] theorem State.withHost_free (h : BitVec 64) : (s.withHost h).free = s.free := rfl
@[simp] theorem State.withHost_pending (h : BitVec 64) : (s.withHost h).pending = s.pending := rfl

/-! ### onWind -/

@[simp] theorem State.onWind_phase (f : WindGov → WindGov) : (s.onWind f).phase = s.phase := rfl
@[simp] theorem State.onWind_baud (f : WindGov → WindGov) : (s.onWind f).baud = s.baud := rfl
@[simp] theorem State.onWind_clock (f : WindGov → WindGov) : (s.onWind f).clock = s.clock := rfl
@[simp] theorem State.onWind_store (f : WindGov → WindGov) : (s.onWind f).store = s.store := rfl
@[simp] theorem State.onWind_seq (f : WindGov → WindGov) : (s.onWind f).seq = s.seq := rfl
@[simp] theorem State.onWind_jets (f : WindGov → WindGov) : (s.onWind f).jets = s.jets := rfl
@[simp] theorem State.onWind_water (f : WindGov → WindGov) : (s.onWind f).water = s.water := rfl
@[simp] theorem State.onWind_light (f : WindGov → WindGov) : (s.onWind f).light = s.light := rfl
@[simp] theorem State.onWind_audio (f : WindGov → WindGov) : (s.onWind f).audio = s.audio := rfl
@[simp] theorem State.onWind_flash (f : WindGov → WindGov) : (s.onWind f).flash = s.flash := rfl
@[simp] theorem State.onWind_trip (f : WindGov → WindGov) : (s.onWind f).trip = s.trip := rfl
@[simp] theorem State.onWind_out (f : WindGov → WindGov) : (s.onWind f).out = s.out := rfl
@[simp] theorem State.onWind_link (f : WindGov → WindGov) : (s.onWind f).link = s.link := rfl
@[simp] theorem State.onWind_free (f : WindGov → WindGov) : (s.onWind f).free = s.free := rfl
@[simp] theorem State.onWind_pending (f : WindGov → WindGov) : (s.onWind f).pending = s.pending := rfl

/-! ### pulseEvent -/

@[simp] theorem State.pulseEvent_phase : (s.pulseEvent).phase = s.phase := rfl
@[simp] theorem State.pulseEvent_baud : (s.pulseEvent).baud = s.baud := rfl
@[simp] theorem State.pulseEvent_clock : (s.pulseEvent).clock = s.clock := rfl
@[simp] theorem State.pulseEvent_store : (s.pulseEvent).store = s.store := rfl
@[simp] theorem State.pulseEvent_seq : (s.pulseEvent).seq = s.seq := rfl
@[simp] theorem State.pulseEvent_jets : (s.pulseEvent).jets = s.jets := rfl
@[simp] theorem State.pulseEvent_water : (s.pulseEvent).water = s.water := rfl
@[simp] theorem State.pulseEvent_light : (s.pulseEvent).light = s.light := rfl
@[simp] theorem State.pulseEvent_audio : (s.pulseEvent).audio = s.audio := rfl
@[simp] theorem State.pulseEvent_flash : (s.pulseEvent).flash = s.flash := rfl
@[simp] theorem State.pulseEvent_trip : (s.pulseEvent).trip = s.trip := rfl
@[simp] theorem State.pulseEvent_out : (s.pulseEvent).out = s.out := rfl
@[simp] theorem State.pulseEvent_link : (s.pulseEvent).link = s.link := rfl
@[simp] theorem State.pulseEvent_free : (s.pulseEvent).free = s.free := rfl
@[simp] theorem State.pulseEvent_pending : (s.pulseEvent).pending = s.pending := rfl

/-! ### movePosition -/

@[simp] theorem State.movePosition_phase (d : Int) : (s.movePosition d).phase = s.phase := rfl
@[simp] theorem State.movePosition_baud (d : Int) : (s.movePosition d).baud = s.baud := rfl
@[simp] theorem State.movePosition_store (d : Int) : (s.movePosition d).store = s.store := rfl
@[simp] theorem State.movePosition_seq (d : Int) : (s.movePosition d).seq = s.seq := rfl
@[simp] theorem State.movePosition_jets (d : Int) : (s.movePosition d).jets = s.jets := rfl
@[simp] theorem State.movePosition_water (d : Int) : (s.movePosition d).water = s.water := rfl
@[simp] theorem State.movePosition_wind (d : Int) : (s.movePosition d).wind = s.wind := rfl
@[simp] theorem State.movePosition_light (d : Int) : (s.movePosition d).light = s.light := rfl
@[simp] theorem State.movePosition_audio (d : Int) : (s.movePosition d).audio = s.audio := rfl
@[simp] theorem State.movePosition_flash (d : Int) : (s.movePosition d).flash = s.flash := rfl
@[simp] theorem State.movePosition_trip (d : Int) : (s.movePosition d).trip = s.trip := rfl
@[simp] theorem State.movePosition_out (d : Int) : (s.movePosition d).out = s.out := rfl
@[simp] theorem State.movePosition_link (d : Int) : (s.movePosition d).link = s.link := rfl
@[simp] theorem State.movePosition_free (d : Int) : (s.movePosition d).free = s.free := rfl
@[simp] theorem State.movePosition_pending (d : Int) : (s.movePosition d).pending = s.pending := rfl

/-! ### clockNotice -/

@[simp] theorem State.clockNotice_phase (c : ClockCause) (d : Int) : (s.clockNotice c d).phase = s.phase := rfl
@[simp] theorem State.clockNotice_baud (c : ClockCause) (d : Int) : (s.clockNotice c d).baud = s.baud := rfl
@[simp] theorem State.clockNotice_clock (c : ClockCause) (d : Int) : (s.clockNotice c d).clock = s.clock := rfl
@[simp] theorem State.clockNotice_store (c : ClockCause) (d : Int) : (s.clockNotice c d).store = s.store := rfl
@[simp] theorem State.clockNotice_seq (c : ClockCause) (d : Int) : (s.clockNotice c d).seq = s.seq := rfl
@[simp] theorem State.clockNotice_jets (c : ClockCause) (d : Int) : (s.clockNotice c d).jets = s.jets := rfl
@[simp] theorem State.clockNotice_water (c : ClockCause) (d : Int) : (s.clockNotice c d).water = s.water := rfl
@[simp] theorem State.clockNotice_wind (c : ClockCause) (d : Int) : (s.clockNotice c d).wind = s.wind := rfl
@[simp] theorem State.clockNotice_light (c : ClockCause) (d : Int) : (s.clockNotice c d).light = s.light := rfl
@[simp] theorem State.clockNotice_audio (c : ClockCause) (d : Int) : (s.clockNotice c d).audio = s.audio := rfl
@[simp] theorem State.clockNotice_flash (c : ClockCause) (d : Int) : (s.clockNotice c d).flash = s.flash := rfl
@[simp] theorem State.clockNotice_trip (c : ClockCause) (d : Int) : (s.clockNotice c d).trip = s.trip := rfl
@[simp] theorem State.clockNotice_out (c : ClockCause) (d : Int) : (s.clockNotice c d).out = s.out := rfl
@[simp] theorem State.clockNotice_free (c : ClockCause) (d : Int) : (s.clockNotice c d).free = s.free := rfl
@[simp] theorem State.clockNotice_pending (c : ClockCause) (d : Int) : (s.clockNotice c d).pending = s.pending := rfl

/-! ### advanceTime -/

@[simp] theorem State.advanceTime_phase : (s.advanceTime).phase = s.phase := rfl
@[simp] theorem State.advanceTime_baud : (s.advanceTime).baud = s.baud := rfl
@[simp] theorem State.advanceTime_store : (s.advanceTime).store = s.store := rfl
@[simp] theorem State.advanceTime_seq : (s.advanceTime).seq = s.seq := rfl
@[simp] theorem State.advanceTime_jets : (s.advanceTime).jets = s.jets := rfl
@[simp] theorem State.advanceTime_water : (s.advanceTime).water = s.water := rfl
@[simp] theorem State.advanceTime_wind : (s.advanceTime).wind = s.wind := rfl
@[simp] theorem State.advanceTime_light : (s.advanceTime).light = s.light := rfl
@[simp] theorem State.advanceTime_audio : (s.advanceTime).audio = s.audio := rfl
@[simp] theorem State.advanceTime_flash : (s.advanceTime).flash = s.flash := rfl
@[simp] theorem State.advanceTime_trip : (s.advanceTime).trip = s.trip := rfl
@[simp] theorem State.advanceTime_out : (s.advanceTime).out = s.out := rfl
@[simp] theorem State.advanceTime_link : (s.advanceTime).link = s.link := rfl
@[simp] theorem State.advanceTime_free : (s.advanceTime).free = s.free := rfl
@[simp] theorem State.advanceTime_pending : (s.advanceTime).pending = s.pending := rfl

/-! ### holdFades -/

@[simp] theorem State.holdFades_phase : (s.holdFades).phase = s.phase := rfl
@[simp] theorem State.holdFades_baud : (s.holdFades).baud = s.baud := rfl
@[simp] theorem State.holdFades_clock : (s.holdFades).clock = s.clock := rfl
@[simp] theorem State.holdFades_store : (s.holdFades).store = s.store := rfl
@[simp] theorem State.holdFades_seq : (s.holdFades).seq = s.seq := rfl
@[simp] theorem State.holdFades_water : (s.holdFades).water = s.water := rfl
@[simp] theorem State.holdFades_wind : (s.holdFades).wind = s.wind := rfl
@[simp] theorem State.holdFades_flash : (s.holdFades).flash = s.flash := rfl
@[simp] theorem State.holdFades_trip : (s.holdFades).trip = s.trip := rfl
@[simp] theorem State.holdFades_out : (s.holdFades).out = s.out := rfl
@[simp] theorem State.holdFades_link : (s.holdFades).link = s.link := rfl
@[simp] theorem State.holdFades_free : (s.holdFades).free = s.free := rfl
@[simp] theorem State.holdFades_pending : (s.holdFades).pending = s.pending := rfl

/-! ### holdOver -/

@[simp] theorem State.holdOver_phase : (s.holdOver).phase = s.phase := rfl
@[simp] theorem State.holdOver_baud : (s.holdOver).baud = s.baud := rfl
@[simp] theorem State.holdOver_store : (s.holdOver).store = s.store := rfl
@[simp] theorem State.holdOver_seq : (s.holdOver).seq = s.seq := rfl
@[simp] theorem State.holdOver_jets : (s.holdOver).jets = s.jets := rfl
@[simp] theorem State.holdOver_water : (s.holdOver).water = s.water := rfl
@[simp] theorem State.holdOver_wind : (s.holdOver).wind = s.wind := rfl
@[simp] theorem State.holdOver_light : (s.holdOver).light = s.light := rfl
@[simp] theorem State.holdOver_audio : (s.holdOver).audio = s.audio := rfl
@[simp] theorem State.holdOver_flash : (s.holdOver).flash = s.flash := rfl
@[simp] theorem State.holdOver_trip : (s.holdOver).trip = s.trip := rfl
@[simp] theorem State.holdOver_out : (s.holdOver).out = s.out := rfl
@[simp] theorem State.holdOver_free : (s.holdOver).free = s.free := rfl
@[simp] theorem State.holdOver_pending : (s.holdOver).pending = s.pending := rfl

/-! ### setEntry -/

@[simp] theorem State.setEntry_phase (n : Fin 16) (e : ShowEntry) : (s.setEntry n e).phase = s.phase := rfl
@[simp] theorem State.setEntry_baud (n : Fin 16) (e : ShowEntry) : (s.setEntry n e).baud = s.baud := rfl
@[simp] theorem State.setEntry_clock (n : Fin 16) (e : ShowEntry) : (s.setEntry n e).clock = s.clock := rfl
@[simp] theorem State.setEntry_seq (n : Fin 16) (e : ShowEntry) : (s.setEntry n e).seq = s.seq := rfl
@[simp] theorem State.setEntry_jets (n : Fin 16) (e : ShowEntry) : (s.setEntry n e).jets = s.jets := rfl
@[simp] theorem State.setEntry_water (n : Fin 16) (e : ShowEntry) : (s.setEntry n e).water = s.water := rfl
@[simp] theorem State.setEntry_wind (n : Fin 16) (e : ShowEntry) : (s.setEntry n e).wind = s.wind := rfl
@[simp] theorem State.setEntry_light (n : Fin 16) (e : ShowEntry) : (s.setEntry n e).light = s.light := rfl
@[simp] theorem State.setEntry_audio (n : Fin 16) (e : ShowEntry) : (s.setEntry n e).audio = s.audio := rfl
@[simp] theorem State.setEntry_flash (n : Fin 16) (e : ShowEntry) : (s.setEntry n e).flash = s.flash := rfl
@[simp] theorem State.setEntry_trip (n : Fin 16) (e : ShowEntry) : (s.setEntry n e).trip = s.trip := rfl
@[simp] theorem State.setEntry_out (n : Fin 16) (e : ShowEntry) : (s.setEntry n e).out = s.out := rfl
@[simp] theorem State.setEntry_link (n : Fin 16) (e : ShowEntry) : (s.setEntry n e).link = s.link := rfl
@[simp] theorem State.setEntry_free (n : Fin 16) (e : ShowEntry) : (s.setEntry n e).free = s.free := rfl
@[simp] theorem State.setEntry_pending (n : Fin 16) (e : ShowEntry) : (s.setEntry n e).pending = s.pending := rfl

/-! ### onFlash -/

@[simp] theorem State.onFlash_phase (f : FlashUnit → FlashUnit) : (s.onFlash f).phase = s.phase := rfl
@[simp] theorem State.onFlash_baud (f : FlashUnit → FlashUnit) : (s.onFlash f).baud = s.baud := rfl
@[simp] theorem State.onFlash_clock (f : FlashUnit → FlashUnit) : (s.onFlash f).clock = s.clock := rfl
@[simp] theorem State.onFlash_store (f : FlashUnit → FlashUnit) : (s.onFlash f).store = s.store := rfl
@[simp] theorem State.onFlash_seq (f : FlashUnit → FlashUnit) : (s.onFlash f).seq = s.seq := rfl
@[simp] theorem State.onFlash_jets (f : FlashUnit → FlashUnit) : (s.onFlash f).jets = s.jets := rfl
@[simp] theorem State.onFlash_water (f : FlashUnit → FlashUnit) : (s.onFlash f).water = s.water := rfl
@[simp] theorem State.onFlash_wind (f : FlashUnit → FlashUnit) : (s.onFlash f).wind = s.wind := rfl
@[simp] theorem State.onFlash_light (f : FlashUnit → FlashUnit) : (s.onFlash f).light = s.light := rfl
@[simp] theorem State.onFlash_audio (f : FlashUnit → FlashUnit) : (s.onFlash f).audio = s.audio := rfl
@[simp] theorem State.onFlash_trip (f : FlashUnit → FlashUnit) : (s.onFlash f).trip = s.trip := rfl
@[simp] theorem State.onFlash_out (f : FlashUnit → FlashUnit) : (s.onFlash f).out = s.out := rfl
@[simp] theorem State.onFlash_link (f : FlashUnit → FlashUnit) : (s.onFlash f).link = s.link := rfl
@[simp] theorem State.onFlash_free (f : FlashUnit → FlashUnit) : (s.onFlash f).free = s.free := rfl
@[simp] theorem State.onFlash_pending (f : FlashUnit → FlashUnit) : (s.onFlash f).pending = s.pending := rfl

/-! ### spoil -/

@[simp] theorem State.spoil_phase (a n : Nat) : (s.spoil a n).phase = s.phase := rfl
@[simp] theorem State.spoil_baud (a n : Nat) : (s.spoil a n).baud = s.baud := rfl
@[simp] theorem State.spoil_clock (a n : Nat) : (s.spoil a n).clock = s.clock := rfl
@[simp] theorem State.spoil_store (a n : Nat) : (s.spoil a n).store = s.store := rfl
@[simp] theorem State.spoil_seq (a n : Nat) : (s.spoil a n).seq = s.seq := rfl
@[simp] theorem State.spoil_jets (a n : Nat) : (s.spoil a n).jets = s.jets := rfl
@[simp] theorem State.spoil_water (a n : Nat) : (s.spoil a n).water = s.water := rfl
@[simp] theorem State.spoil_wind (a n : Nat) : (s.spoil a n).wind = s.wind := rfl
@[simp] theorem State.spoil_light (a n : Nat) : (s.spoil a n).light = s.light := rfl
@[simp] theorem State.spoil_audio (a n : Nat) : (s.spoil a n).audio = s.audio := rfl
@[simp] theorem State.spoil_trip (a n : Nat) : (s.spoil a n).trip = s.trip := rfl
@[simp] theorem State.spoil_out (a n : Nat) : (s.spoil a n).out = s.out := rfl
@[simp] theorem State.spoil_link (a n : Nat) : (s.spoil a n).link = s.link := rfl
@[simp] theorem State.spoil_pending (a n : Nat) : (s.spoil a n).pending = s.pending := rfl

/-! ### deliverMark -/

@[simp] theorem State.deliverMark_phase (n : Nat) : (s.deliverMark n).phase = s.phase := rfl
@[simp] theorem State.deliverMark_baud (n : Nat) : (s.deliverMark n).baud = s.baud := rfl
@[simp] theorem State.deliverMark_clock (n : Nat) : (s.deliverMark n).clock = s.clock := rfl
@[simp] theorem State.deliverMark_store (n : Nat) : (s.deliverMark n).store = s.store := rfl
@[simp] theorem State.deliverMark_jets (n : Nat) : (s.deliverMark n).jets = s.jets := rfl
@[simp] theorem State.deliverMark_water (n : Nat) : (s.deliverMark n).water = s.water := rfl
@[simp] theorem State.deliverMark_wind (n : Nat) : (s.deliverMark n).wind = s.wind := rfl
@[simp] theorem State.deliverMark_light (n : Nat) : (s.deliverMark n).light = s.light := rfl
@[simp] theorem State.deliverMark_audio (n : Nat) : (s.deliverMark n).audio = s.audio := rfl
@[simp] theorem State.deliverMark_flash (n : Nat) : (s.deliverMark n).flash = s.flash := rfl
@[simp] theorem State.deliverMark_trip (n : Nat) : (s.deliverMark n).trip = s.trip := rfl
@[simp] theorem State.deliverMark_out (n : Nat) : (s.deliverMark n).out = s.out := rfl
@[simp] theorem State.deliverMark_free (n : Nat) : (s.deliverMark n).free = s.free := rfl
@[simp] theorem State.deliverMark_pending (n : Nat) : (s.deliverMark n).pending = s.pending := rfl

/-! ### stopRun -/

@[simp] theorem State.stopRun_phase : (s.stopRun).phase = s.phase := rfl
@[simp] theorem State.stopRun_baud : (s.stopRun).baud = s.baud := rfl
@[simp] theorem State.stopRun_store : (s.stopRun).store = s.store := rfl
@[simp] theorem State.stopRun_jets : (s.stopRun).jets = s.jets := rfl
@[simp] theorem State.stopRun_water : (s.stopRun).water = s.water := rfl
@[simp] theorem State.stopRun_wind : (s.stopRun).wind = s.wind := rfl
@[simp] theorem State.stopRun_light : (s.stopRun).light = s.light := rfl
@[simp] theorem State.stopRun_flash : (s.stopRun).flash = s.flash := rfl
@[simp] theorem State.stopRun_trip : (s.stopRun).trip = s.trip := rfl
@[simp] theorem State.stopRun_out : (s.stopRun).out = s.out := rfl
@[simp] theorem State.stopRun_free : (s.stopRun).free = s.free := rfl
@[simp] theorem State.stopRun_pending : (s.stopRun).pending = s.pending := rfl

/-! ### What the updates change -/

@[simp] theorem State.withPending_pending (q : List Instr) : (s.withPending q).pending = q := rfl
@[simp] theorem State.transmit_link : s.transmit.link = s.link.choose := rfl
@[simp] theorem State.hunt_link : s.hunt.link = { s.link with rx := .hunting } := rfl
@[simp] theorem State.withRx_link (rx : RxState) : (s.withRx rx).link = { s.link with rx := rx } := rfl
@[simp] theorem State.joinReply_link (r : Reply) :
    (s.joinReply r).link = { s.link with replies := s.link.replies ++ [r] } := rfl
@[simp] theorem State.makePending_link (n : Notice) : (s.makePending n).link = s.link.tell n := rfl
@[simp] theorem State.withOutstanding_link (b : Bool) :
    (s.withOutstanding b).link = { s.link with outstanding := b } := rfl
@[simp] theorem State.movePosition_position (d : Int) : (s.movePosition d).clock.position = s.clock.position + d := rfl
@[simp] theorem State.movePosition_plantTime (d : Int) :
    (s.movePosition d).clock.plantTime = s.clock.plantTime := rfl
@[simp] theorem State.advanceTime_plantTime : s.advanceTime.clock.plantTime = s.clock.plantTime + 1 := rfl
@[simp] theorem State.advanceTime_position : s.advanceTime.clock.position = s.clock.position := rfl
@[simp] theorem State.modeSafe_mode : s.modeSafe.out.mode = .safe := rfl
@[simp] theorem State.modeLive_mode : s.modeLive.out.mode = .live := rfl
@[simp] theorem State.withHost_host (h : BitVec 64) : (s.withHost h).out.host = h := rfl
@[simp] theorem State.withHost_mode (h : BitVec 64) : (s.withHost h).out.mode = s.out.mode := rfl
@[simp] theorem State.enterState_state (n : SeqState) : (s.enterState n).seq = { s.seq with state := n } := rfl
@[simp] theorem State.emptyQueue_seq : s.emptyQueue.seq = { s.seq with queue := [] } := rfl
@[simp] theorem State.withReason_seq (r : EndReason) : (s.withReason r).seq = { s.seq with endReason := r } := rfl
@[simp] theorem State.changeFlags_seq (c d : Half) :
    (s.changeFlags c d).seq = { s.seq with flags := writeFlags s.seq.flags c d } := rfl
@[simp] theorem State.deliverMark_seq (n : Nat) : (s.deliverMark n).seq = { s.seq with lastMark := some n } := rfl
@[simp] theorem State.stopRun_seq :
    s.stopRun.seq = { s.seq with state := .idle, running := none, queue := [], loopStack := [] } := rfl
@[simp] theorem State.stopRun_clock : s.stopRun.clock = { s.clock with state := .stopped, armed := none } := rfl
@[simp] theorem State.setEntry_store (n : Fin 16) (e : ShowEntry) :
    (s.setEntry n e).store = { s.store with dir := s.store.dir.set n e } := rfl
@[simp] theorem State.onWind_wind (f : WindGov → WindGov) : (s.onWind f).wind = f s.wind := rfl
@[simp] theorem State.onFlash_flash (f : FlashUnit → FlashUnit) : (s.onFlash f).flash = f s.flash := rfl
@[simp] theorem State.onPoll_poll (f : PollState → PollState) : (s.onPoll f).water.poll = f s.water.poll := rfl
@[simp] theorem State.onPoll_pumps (f : PollState → PollState) : (s.onPoll f).water.pumps = s.water.pumps := rfl
@[simp] theorem State.onPump_poll (p : Fin 8) (f : Pump → Pump) : (s.onPump p f).water.poll = s.water.poll := rfl
@[simp] theorem State.onPump_pumps (p : Fin 8) (f : Pump → Pump) :
    (s.onPump p f).water.pumps = s.water.pumps.modify p f := rfl
@[simp] theorem State.onStream_streams (i : Fin 4) (f : Stream → Stream) :
    (s.onStream i f).audio.streams = s.audio.streams.modify i f := rfl
@[simp] theorem State.onStream_read (i : Fin 4) (f : Stream → Stream) : (s.onStream i f).audio.read = s.audio.read := rfl

/-! ### What commands go through, by phase -/

@[simp] theorem State.transmit_now : s.transmit.now = s.now := rfl
@[simp] theorem State.hunt_now : s.hunt.now = s.now := rfl

end Sys2Proof.Machine
end

