-- ==== Sys2Proof/Laws/Ops.lean ====
section
/-! SUPPORT. For each shared operation, what it can do, said once: the transmit side's choice, the judgement of requests
and events, the pending set, and free orders. -/

namespace Sys2Proof.Machine

/-! ### The transmit side's choice (R195) -/

theorem LinkPort.choose_of_busy {l : LinkPort} {f : TxFrame} (h : l.line = some f) : l.choose = l := by
  simp [LinkPort.choose, h]

theorem LinkPort.choose_of_reply {l : LinkPort} {r : Reply} {rs : List Reply} (h : l.line = none)
    (hr : l.replies = r :: rs) : l.choose = { l with line := some r.frame, replies := rs } := by
  simp [LinkPort.choose, h, hr]

theorem LinkPort.choose_of_notice {l : LinkPort} {k : Nat} {e : NoticeEntry} (h : l.line = none)
    (hr : l.replies = []) (hn : firstPending l.mask 0 l.notices.cells = some (k, e)) :
    l.choose = { l with
      line := some (e.frame k),
      notices := l.notices.mapIdx (fun i e => if i = k then { e with pending := false, count := 0 } else e) } := by
  simp [LinkPort.choose, h, hr, hn]

theorem LinkPort.choose_of_silence {l : LinkPort} (h : l.line = none) (hr : l.replies = [])
    (hn : firstPending l.mask 0 l.notices.cells = none) : l.choose = l := by
  simp [LinkPort.choose, h, hr, hn]

/-- The choice either leaves the link as it is or puts a frame on a free line. -/
theorem LinkPort.choose_cases (l : LinkPort) :
    l.choose = l ∨ (l.line = none ∧ ∃ f, l.choose.line = some f) := by
  cases h : l.line with
  | some f => exact .inl (choose_of_busy h)
  | none =>
    cases hr : l.replies with
    | cons r rs => exact .inr ⟨rfl, r.frame, by simp [choose_of_reply h hr]⟩
    | nil =>
      cases hn : firstPending l.mask 0 l.notices.cells with
      | none => exact .inl (choose_of_silence h hr hn)
      | some p => exact .inr ⟨rfl, p.2.frame p.1, by simp [choose_of_notice h hr (k := p.1) (e := p.2) hn]⟩

/-- A line that has chosen does not choose again. -/
@[simp] theorem LinkPort.choose_choose (l : LinkPort) : l.choose.choose = l.choose := by
  rcases l.choose_cases with h | ⟨_, f, hf⟩
  · rw [h, h]
  · exact choose_of_busy hf

/-- What the choice leaves as it is. -/
theorem LinkPort.choose_frame (l : LinkPort) :
    l.choose.rx = l.rx ∧ l.choose.outstanding = l.outstanding ∧ l.choose.mask = l.mask ∧
      l.choose.resetTaken = l.resetTaken := by
  unfold LinkPort.choose
  split
  · exact ⟨rfl, rfl, rfl, rfl⟩
  · split
    · exact ⟨rfl, rfl, rfl, rfl⟩
    · split <;> exact ⟨rfl, rfl, rfl, rfl⟩

@[simp] theorem LinkPort.choose_rx (l : LinkPort) : l.choose.rx = l.rx := l.choose_frame.1
@[simp] theorem LinkPort.choose_outstanding (l : LinkPort) : l.choose.outstanding = l.outstanding :=
  l.choose_frame.2.1
@[simp] theorem LinkPort.choose_mask (l : LinkPort) : l.choose.mask = l.mask := l.choose_frame.2.2.1
@[simp] theorem LinkPort.choose_resetTaken (l : LinkPort) : l.choose.resetTaken = l.resetTaken := l.choose_frame.2.2.2

/-- The choice takes a reply off the list or leaves the list. -/
theorem LinkPort.choose_replies (l : LinkPort) :
    l.choose.replies = l.replies ∨ ∃ r, l.replies = r :: l.choose.replies := by
  unfold LinkPort.choose
  split
  · exact .inl rfl
  · split
    · rename_i r rs h
      exact .inr ⟨r, h⟩
    · split
      · exact .inl rfl
      · exact .inl rfl

/-- The choice does not look at the receive side. -/
theorem LinkPort.choose_withRx (l : LinkPort) (rx : RxState) :
    ({ l with rx := rx } : LinkPort).choose = { l.choose with rx := rx } := by
  unfold LinkPort.choose
  split <;> rename_i h <;> simp only at h
  · simp [h]
  · split <;> rename_i hr <;> simp only at hr
    · simp [h, hr]
    · split <;> rename_i hn <;> simp only at hn <;> simp [h, hr, hn]

/-- A line that has chosen does not choose again when only the receive side has moved. -/
@[simp] theorem LinkPort.choose_choose_withRx (l : LinkPort) (rx : RxState) :
    ({ l.choose with rx := rx } : LinkPort).choose = { l.choose with rx := rx } := by
  rw [choose_withRx, choose_choose]

/-- The same, in the form to which simp brings the fields that a choice leaves as they are. -/
@[simp] theorem LinkPort.choose_of_chosen (l : LinkPort) (rx : RxState) :
    ({ rx := rx, outstanding := l.outstanding, replies := l.choose.replies, notices := l.choose.notices,
       mask := l.mask, line := l.choose.line, resetTaken := l.resetTaken } : LinkPort).choose =
      { rx := rx, outstanding := l.outstanding, replies := l.choose.replies, notices := l.choose.notices,
        mask := l.mask, line := l.choose.line, resetTaken := l.resetTaken } := by
  have h := l.choose_choose_withRx rx
  simp only [l.choose_outstanding, l.choose_mask, l.choose_resetTaken] at h
  exact h

/-! ### Events and requests -/

theorem State.event_of_running {s : State} (h : s.phase = .running) (f : State → State) :
    s.event f = (f s.transmit).transmit := by
  simp [State.event, h]

theorem State.event_of_not_running {s : State} (h : s.phase ≠ .running) (f : State → State) : s.event f = s := by
  simp [State.event, h]

theorem happens_of_running {s : State} (h : s.phase = .running) (f : State → State) :
    happens f s = .next (f s.transmit).transmit := by
  simp [happens, State.event_of_running h]

theorem happens_of_not_running {s : State} (h : s.phase ≠ .running) (f : State → State) : happens f s = .next s := by
  simp [happens, State.event_of_not_running h]

/-- A ready request reaches its owner. -/
theorem request_of_ready {s : State} (h : s.Ready) (kind tag : Byte) (owner : State → State) :
    request kind tag owner s = .next (owner s.transmit.hunt).transmit := by
  obtain ⟨hp, hr, ho, hl⟩ := h
  have hb : ¬ 4 ≤ s.link.choose.replies.length := by omega
  simp [request, State.event_of_running hp, State.judged, State.busy, hr, ho, hb]

/-- What a request can do while the 648 runs: it is discarded, answered BUSY, or decided by its owner. -/
theorem request_cases {s : State} (hp : s.phase = .running) (kind tag : Byte) (owner : State → State) :
    (s.link.resetTaken = true ∧ request kind tag owner s = .next s.transmit.hunt.transmit) ∨
    (s.link.resetTaken = false ∧ s.transmit.hunt.busy = true ∧
      request kind tag owner s = .next (s.transmit.hunt.busyReply kind tag).transmit) ∨
    (s.Ready ∧ request kind tag owner s = .next (owner s.transmit.hunt).transmit) := by
  cases hr : s.link.resetTaken with
  | true => exact .inl ⟨rfl, by
      simp [request, State.event_of_running hp, State.judged, hr]⟩
  | false =>
    cases hb : s.transmit.hunt.busy with
    | true => exact .inr (.inl ⟨rfl, rfl, by
      simp [request, State.event_of_running hp, State.judged, hr, hb]⟩)
    | false =>
      have h : s.Ready := by
        simp [State.busy] at hb
        exact ⟨hp, hr, hb.1, hb.2⟩
      exact .inr (.inr ⟨h, request_of_ready h kind tag owner⟩)

theorem request_of_not_running {s : State} (h : s.phase ≠ .running) (kind tag : Byte) (owner : State → State) :
    request kind tag owner s = .next s := by
  simp [request, State.event_of_not_running h]

/-! ### Replies and notices -/

/-- An owner that only replies leaves everything but the link as it is. -/
theorem request_replied {s : State} (h : s.Ready) (kind tag : Byte) (status : Status) (fields : List Byte) :
    request kind tag (fun s => s.answer kind tag status fields) s = .next (s.replied kind tag status fields) := by
  rw [request_of_ready h]
  rfl

theorem State.answer_transmit (s : State) (kind tag : Byte) (status : Status) (fields : List Byte) :
    (s.transmit.hunt.answer kind tag status fields).transmit = s.replied kind tag status fields := rfl

/-! ### Free orders (R171; log 10) -/

/-- A property that every effect keeps, whatever the order of the free choices, holds after all of them. -/
theorem takeEach_keeps {α : Type} {P : State → Prop} {effect : α → State → State}
    (hfree : ∀ s n, P s → P { s with free := n }) (heff : ∀ a s, P s → P (effect a s)) :
    ∀ (fuel : Nat) (as : List α) (s : State), P s → P (takeEach effect fuel as s)
  | 0, _, _, h => h
  | _ + 1, [], _, h => h
  | _ + 1, [a], s, h => heff a s h
  | fuel + 1, a :: b :: as, s, h => by
    unfold takeEach
    simp only [State.chooseBelow]
    split
    · exact takeEach_keeps hfree heff fuel _ _ (heff _ _ (hfree _ _ h))
    · exact hfree _ _ h

end Sys2Proof.Machine
end

