-- ==== Sys2Proof/Laws/PerInstr.lean ====
section
/-! SUPPORT. The family Codec: what holds of every request's frame, one lemma for each command. -/

namespace Sys2Proof

open Sys2Proof.Machine (le)

namespace Laws

theorem le_length (n x : Nat) : (le n x).length = n := by
  induction n generalizing x with
  | zero => rfl
  | succ n ih => simp [le, ih]

theorem halfBytes_length (x : Half) : (halfBytes x).length = 2 := le_length 2 _

theorem halves_length (xs : List Half) : (xs.flatMap halfBytes).length = 2 * xs.length := by
  induction xs with
  | nil => rfl
  | cons x xs ih =>
    simp only [List.flatMap_cons, List.length_append, halfBytes_length, ih, List.length_cons]
    omega

theorem zone_length {z : ZoneArgs} (h : z.wf = true) : z.bytes.length = 20 := by
  have h8 : z.factors.length = 8 := by simpa [ZoneArgs.wf] using h
  simp only [ZoneArgs.bytes, List.length_append, halves_length, halfBytes_length, h8]

theorem zones_length {zs : List ZoneArgs} (h : zs.all ZoneArgs.wf = true) :
    (zs.flatMap ZoneArgs.bytes).length = 20 * zs.length := by
  induction zs with
  | nil => rfl
  | cons z zs ih =>
    simp only [List.all_cons, Bool.and_eq_true] at h
    simp only [List.flatMap_cons, List.length_append, zone_length h.1, ih h.2, List.length_cons]
    omega

/-- The frame of a well-formed request has a request's kind, below 0x80, and a payload that a frame can carry
(R185, R188). -/
def Codec.Statement (i : Instr) : Prop :=
  i.wf = true → ∀ f, encodeRequest i = some f → f.1.toNat < 0x80 ∧ f.2.2.length ≤ 1024

end Laws

theorem Laws.Codec.reset (tag : Byte) : Laws.Codec.Statement (.reset tag) := by
  intro _ f hf
  cases hf
  simp

theorem Laws.Codec.resetPin : Laws.Codec.Statement (.resetPin) := by
  intro _ f hf
  cases hf

theorem Laws.Codec.resetSequence (baud : Baud) (lines : BitVec 32) :
    Laws.Codec.Statement (.resetSequence baud lines) := by
  intro _ f hf
  cases hf

theorem Laws.Codec.noticeMask (tag mask : Byte) : Laws.Codec.Statement (.noticeMask tag mask) := by
  intro _ f hf
  cases hf
  simp

theorem Laws.Codec.saveImage (tag : Byte) : Laws.Codec.Statement (.saveImage tag) := by
  intro _ f hf
  cases hf
  simp

theorem Laws.Codec.clockConfig (tag : Byte) (timeout : Half) : Laws.Codec.Statement (.clockConfig tag timeout) := by
  intro _ f hf
  cases hf
  simp [Laws.halfBytes_length]

theorem Laws.Codec.clockRead (tag : Byte) : Laws.Codec.Statement (.clockRead tag) := by
  intro _ f hf
  cases hf
  simp

theorem Laws.Codec.showOpen (tag : Byte) (args : ShowOpenArgs) : Laws.Codec.Statement (.showOpen tag args) := by
  intro _ f hf
  cases hf
  simp [Laws.halfBytes_length]

theorem Laws.Codec.showAppend (tag : Byte) (payload : List Byte) :
    Laws.Codec.Statement (.showAppend tag payload) := by
  intro hw f hf
  have h : payload.length ≤ 1024 := by simpa [Instr.wf] using hw
  cases hf
  simpa using h

theorem Laws.Codec.showSeal (tag number : Byte) : Laws.Codec.Statement (.showSeal tag number) := by
  intro _ f hf
  cases hf
  simp

theorem Laws.Codec.showErase (tag number : Byte) : Laws.Codec.Statement (.showErase tag number) := by
  intro _ f hf
  cases hf
  simp

theorem Laws.Codec.showInfo (tag number : Byte) : Laws.Codec.Statement (.showInfo tag number) := by
  intro _ f hf
  cases hf
  simp

theorem Laws.Codec.showStart (tag number : Byte) : Laws.Codec.Statement (.showStart tag number) := by
  intro _ f hf
  cases hf
  simp

theorem Laws.Codec.showPause (tag : Byte) : Laws.Codec.Statement (.showPause tag) := by
  intro _ f hf
  cases hf
  simp

theorem Laws.Codec.showResume (tag : Byte) : Laws.Codec.Statement (.showResume tag) := by
  intro _ f hf
  cases hf
  simp

theorem Laws.Codec.showStop (tag : Byte) : Laws.Codec.Statement (.showStop tag) := by
  intro _ f hf
  cases hf
  simp

theorem Laws.Codec.showAbort (tag : Byte) : Laws.Codec.Statement (.showAbort tag) := by
  intro _ f hf
  cases hf
  simp

theorem Laws.Codec.flagsSet (tag : Byte) (mask : Half) : Laws.Codec.Statement (.flagsSet tag mask) := by
  intro _ f hf
  cases hf
  simp [Laws.halfBytes_length]

theorem Laws.Codec.flagsClear (tag : Byte) (mask : Half) : Laws.Codec.Statement (.flagsClear tag mask) := by
  intro _ f hf
  cases hf
  simp [Laws.halfBytes_length]

theorem Laws.Codec.sequencerRead (tag : Byte) : Laws.Codec.Statement (.sequencerRead tag) := by
  intro _ f hf
  cases hf
  simp

theorem Laws.Codec.channelConfig (tag : Byte) (args : ChannelArgs) :
    Laws.Codec.Statement (.channelConfig tag args) := by
  intro hw f hf
  have h9 : args.curve.length = 9 := by simpa [Instr.wf, ChannelArgs.wf] using hw
  cases hf
  refine ⟨by simp, ?_⟩
  simp only [List.length_append, List.length_cons, List.length_nil, Laws.halves_length, Laws.halfBytes_length, h9]
  omega

theorem Laws.Codec.jetGroupConfig (tag : Byte) (args : JetGroupArgs) :
    Laws.Codec.Statement (.jetGroupConfig tag args) := by
  intro _ f hf
  cases hf
  simp [Laws.halfBytes_length, Laws.le_length]

theorem Laws.Codec.jetSet (tag : Byte) (args : JetSetArgs) : Laws.Codec.Statement (.jetSet tag args) := by
  intro _ f hf
  cases hf
  simp [Laws.halfBytes_length]

theorem Laws.Codec.channelRead (tag channel : Byte) : Laws.Codec.Statement (.channelRead tag channel) := by
  intro _ f hf
  cases hf
  simp

theorem Laws.Codec.jetGroupRead (tag group : Byte) : Laws.Codec.Statement (.jetGroupRead tag group) := by
  intro _ f hf
  cases hf
  simp

theorem Laws.Codec.pumpConfig (tag : Byte) (args : PumpArgs) : Laws.Codec.Statement (.pumpConfig tag args) := by
  intro _ f hf
  cases hf
  simp [Laws.halfBytes_length]

theorem Laws.Codec.pumpSet (tag : Byte) (args : PumpSetArgs) : Laws.Codec.Statement (.pumpSet tag args) := by
  intro _ f hf
  cases hf
  simp [Laws.halfBytes_length]

theorem Laws.Codec.pumpClear (tag pump : Byte) : Laws.Codec.Statement (.pumpClear tag pump) := by
  intro _ f hf
  cases hf
  simp

theorem Laws.Codec.pumpRead (tag pump : Byte) : Laws.Codec.Statement (.pumpRead tag pump) := by
  intro _ f hf
  cases hf
  simp

theorem Laws.Codec.manifoldConfig (tag manifold : Byte) (reserve : Half) :
    Laws.Codec.Statement (.manifoldConfig tag manifold reserve) := by
  intro _ f hf
  cases hf
  simp [Laws.halfBytes_length]

theorem Laws.Codec.manifoldRead (tag manifold : Byte) : Laws.Codec.Statement (.manifoldRead tag manifold) := by
  intro _ f hf
  cases hf
  simp

theorem Laws.Codec.windConfig (tag : Byte) (args : WindArgs) : Laws.Codec.Statement (.windConfig tag args) := by
  intro hw f hf
  simp only [Instr.wf, WindArgs.wf, Bool.and_eq_true, beq_iff_eq] at hw
  cases hf
  refine ⟨by simp, ?_⟩
  simp only [List.length_append, Laws.halves_length, Laws.halfBytes_length, Laws.zones_length hw.2, hw.1.1, hw.1.2]
  omega

theorem Laws.Codec.windBandSet (tag band : Byte) : Laws.Codec.Statement (.windBandSet tag band) := by
  intro _ f hf
  cases hf
  simp

theorem Laws.Codec.windRead (tag : Byte) : Laws.Codec.Statement (.windRead tag) := by
  intro _ f hf
  cases hf
  simp

theorem Laws.Codec.fixtureConfig (tag : Byte) (args : FixtureArgs) :
    Laws.Codec.Statement (.fixtureConfig tag args) := by
  intro _ f hf
  cases hf
  simp [Laws.halfBytes_length]

theorem Laws.Codec.fixtureGroupConfig (tag : Byte) (args : FixtureGroupArgs) :
    Laws.Codec.Statement (.fixtureGroupConfig tag args) := by
  intro _ f hf
  cases hf
  simp [Laws.halfBytes_length, Laws.le_length]

theorem Laws.Codec.lightingConfig (tag : Byte) (args : LightingArgs) :
    Laws.Codec.Statement (.lightingConfig tag args) := by
  intro _ f hf
  cases hf
  simp [Laws.halfBytes_length]

theorem Laws.Codec.fixtureSet (tag : Byte) (args : FixtureSetArgs) : Laws.Codec.Statement (.fixtureSet tag args) := by
  intro _ f hf
  cases hf
  simp [Laws.halfBytes_length]

theorem Laws.Codec.fixtureRead (tag fixture : Byte) : Laws.Codec.Statement (.fixtureRead tag fixture) := by
  intro _ f hf
  cases hf
  simp

theorem Laws.Codec.fixtureGroupRead (tag group : Byte) : Laws.Codec.Statement (.fixtureGroupRead tag group) := by
  intro _ f hf
  cases hf
  simp

theorem Laws.Codec.lightingRead (tag : Byte) : Laws.Codec.Statement (.lightingRead tag) := by
  intro _ f hf
  cases hf
  simp

theorem Laws.Codec.trackDefine (tag : Byte) (args : TrackArgs) : Laws.Codec.Statement (.trackDefine tag args) := by
  intro _ f hf
  cases hf
  simp [Laws.le_length]

theorem Laws.Codec.trackRead (tag track : Byte) : Laws.Codec.Statement (.trackRead tag track) := by
  intro _ f hf
  cases hf
  simp

theorem Laws.Codec.audioConfig (tag : Byte) (gain : Half) (release : Byte) :
    Laws.Codec.Statement (.audioConfig tag gain release) := by
  intro _ f hf
  cases hf
  simp [Laws.halfBytes_length]

theorem Laws.Codec.streamRead (tag stream : Byte) : Laws.Codec.Statement (.streamRead tag stream) := by
  intro _ f hf
  cases hf
  simp

theorem Laws.Codec.flashErase (tag : Byte) (address : Quad) : Laws.Codec.Statement (.flashErase tag address) := by
  intro _ f hf
  cases hf
  simp [Laws.le_length]

theorem Laws.Codec.flashWrite (tag : Byte) (address : Quad) (data : List Byte) :
    Laws.Codec.Statement (.flashWrite tag address data) := by
  intro hw f hf
  have h : data.length = 256 := by simpa [Instr.wf] using hw
  cases hf
  simp [Laws.le_length, h]

theorem Laws.Codec.flashRead (tag : Byte) (address : Quad) (length : Half) :
    Laws.Codec.Statement (.flashRead tag address length) := by
  intro _ f hf
  cases hf
  simp [Laws.halfBytes_length, Laws.le_length]

theorem Laws.Codec.flashInterfaceHold : Laws.Codec.Statement (.flashInterfaceHold) := by
  intro _ f hf
  cases hf

theorem Laws.Codec.flashOperationDone (ok : Bool) : Laws.Codec.Statement (.flashOperationDone ok) := by
  intro _ f hf
  cases hf

theorem Laws.Codec.flashTimeout : Laws.Codec.Statement (.flashTimeout) := by
  intro _ f hf
  cases hf

theorem Laws.Codec.inputConfig (tag : Byte) (payload : List Byte) :
    Laws.Codec.Statement (.inputConfig tag payload) := by
  intro hw f hf
  have h : payload.length ≤ 1024 := by simpa [Instr.wf] using hw
  cases hf
  simpa using h

theorem Laws.Codec.reactionConfig (tag : Byte) (args : ReactionArgs) :
    Laws.Codec.Statement (.reactionConfig tag args) := by
  intro _ f hf
  cases hf
  simp

theorem Laws.Codec.tripClear (tag reaction : Byte) : Laws.Codec.Statement (.tripClear tag reaction) := by
  intro _ f hf
  cases hf
  simp

theorem Laws.Codec.inputRead (tag : Byte) : Laws.Codec.Statement (.inputRead tag) := by
  intro _ f hf
  cases hf
  simp

theorem Laws.Codec.setPlant (tag code : Byte) : Laws.Codec.Statement (.setPlant tag code) := by
  intro _ f hf
  cases hf
  simp

theorem Laws.Codec.outputConfig (tag : Byte) (args : OutputArgs) : Laws.Codec.Statement (.outputConfig tag args) := by
  intro _ f hf
  cases hf
  simp

theorem Laws.Codec.outputsSet (tag : Byte) (mask : BitVec 64) : Laws.Codec.Statement (.outputsSet tag mask) := by
  intro _ f hf
  cases hf
  simp [Laws.le_length]

theorem Laws.Codec.outputsClear (tag : Byte) (mask : BitVec 64) : Laws.Codec.Statement (.outputsClear tag mask) := by
  intro _ f hf
  cases hf
  simp [Laws.le_length]

theorem Laws.Codec.outputRead (tag : Byte) : Laws.Codec.Statement (.outputRead tag) := by
  intro _ f hf
  cases hf
  simp

theorem Laws.Codec.frameComplete (kind tag : Byte) (payload : List Byte) :
    Laws.Codec.Statement (.frameComplete kind tag payload) := by
  intro _ f hf
  cases hf

theorem Laws.Codec.frameTimeout : Laws.Codec.Statement (.frameTimeout) := by
  intro _ f hf
  cases hf

theorem Laws.Codec.transmitEnd : Laws.Codec.Statement (.transmitEnd) := by
  intro _ f hf
  cases hf

theorem Laws.Codec.plantMillisecond : Laws.Codec.Statement (.plantMillisecond) := by
  intro _ f hf
  cases hf

theorem Laws.Codec.stepTimeout : Laws.Codec.Statement (.stepTimeout) := by
  intro _ f hf
  cases hf

theorem Laws.Codec.manifoldUpdate (m : Manifold) : Laws.Codec.Statement (.manifoldUpdate m) := by
  intro _ f hf
  cases hf

theorem Laws.Codec.pollSlot : Laws.Codec.Statement (.pollSlot) := by
  intro _ f hf
  cases hf

theorem Laws.Codec.driveReply (bytes : List Byte) : Laws.Codec.Statement (.driveReply bytes) := by
  intro _ f hf
  cases hf

theorem Laws.Codec.pollMiss : Laws.Codec.Statement (.pollMiss) := by
  intro _ f hf
  cases hf

theorem Laws.Codec.startTimeout (p : Fin 8) : Laws.Codec.Statement (.startTimeout p) := by
  intro _ f hf
  cases hf

theorem Laws.Codec.gateEnd : Laws.Codec.Statement (.gateEnd) := by
  intro _ f hf
  cases hf

theorem Laws.Codec.trimStep : Laws.Codec.Statement (.trimStep) := by
  intro _ f hf
  cases hf

theorem Laws.Codec.lightingFrame : Laws.Codec.Statement (.lightingFrame) := by
  intro _ f hf
  cases hf

theorem Laws.Codec.outputFrame : Laws.Codec.Statement (.outputFrame) := by
  intro _ f hf
  cases hf

theorem Laws.Codec.stopFadeEnd (stream : Fin 4) : Laws.Codec.Statement (.stopFadeEnd stream) := by
  intro _ f hf
  cases hf

theorem Laws.Codec.envelopeEvent : Laws.Codec.Statement (.envelopeEvent) := by
  intro _ f hf
  cases hf

theorem Laws.Codec.refillReadComplete : Laws.Codec.Statement (.refillReadComplete) := by
  intro _ f hf
  cases hf

theorem Laws.Codec.inputSample (lines : BitVec 32) : Laws.Codec.Statement (.inputSample lines) := by
  intro _ f hf
  cases hf

theorem Laws.Codec.conditionSample (c : Fin 24) : Laws.Codec.Statement (.conditionSample c) := by
  intro _ f hf
  cases hf

theorem Laws.Codec.pwmPeriod : Laws.Codec.Statement (.pwmPeriod) := by
  intro _ f hf
  cases hf

theorem Laws.Codec.controlLinkByte (byte : Byte) : Laws.Codec.Statement (.controlLinkByte byte) := by
  intro _ f hf
  cases hf

theorem Laws.Codec.resetPinHeldLow : Laws.Codec.Statement (.resetPinHeldLow) := by
  intro _ f hf
  cases hf

end Sys2Proof
end

