-- ==== Sys2Proof/Laws/Table.lean ====
section
/-! SUPPORT. Reading a table after each operation on it. -/

namespace Sys2Proof.Machine

variable {α β γ : Type} {n : Nat}

theorem Table.ext_get {t u : Table α n} (h : ∀ i, t.get i = u.get i) : t = u := by
  cases t with
  | mk c hc =>
    cases u with
    | mk d hd =>
      congr 1
      apply List.ext_getElem (by rw [hc, hd])
      intro i h1 h2
      exact h ⟨i, by omega⟩

theorem Table.get_mem (t : Table α n) (i : Fin n) : t.get i ∈ t.cells := by simp [Table.get]

theorem Table.mem_cells {t : Table α n} {a : α} : a ∈ t.cells ↔ ∃ i, t.get i = a := by
  constructor
  · intro h
    obtain ⟨i, hi, ha⟩ := List.mem_iff_getElem.1 h
    exact ⟨⟨i, by rw [← t.size]; exact hi⟩, ha⟩
  · rintro ⟨i, rfl⟩
    exact t.get_mem i

theorem Table.cells_getElem? (t : Table α n) (i : Fin n) : t.cells[i.val]? = some (t.get i) := by
  simp [Table.get, t.size]

@[simp] theorem Table.get_fill (a : α) (i : Fin n) : (Table.fill n a).get i = a := by
  simp [Table.get, Table.fill]

@[simp] theorem Table.get_set (t : Table α n) (i j : Fin n) (a : α) :
    (t.set i a).get j = if i = j then a else t.get j := by
  simp [Table.get, Table.set, List.getElem_set, Fin.ext_iff]

@[simp] theorem Table.get_modify (t : Table α n) (i j : Fin n) (f : α → α) :
    (t.modify i f).get j = if i = j then f (t.get j) else t.get j := by
  simp only [Table.modify, Table.get_set]
  split
  · next h => rw [h]
  · rfl

/-- Changing one entry is setting it to its changed value. -/
theorem Table.modify_eq_set (t : Table α n) (i : Fin n) (f : α → α) : t.modify i f = t.set i (f (t.get i)) := by
  apply Table.ext_get
  intro j
  by_cases h : i = j
  · subst h
    simp
  · simp [h]

/-- The later of two settings of one entry stands. -/
@[simp] theorem Table.set_set (t : Table α n) (i : Fin n) (a b : α) : (t.set i a).set i b = t.set i b := by
  apply Table.ext_get
  intro j
  by_cases h : i = j <;> simp [h]

theorem Table.map_map {γ : Type} (f : α → β) (g : β → γ) (t : Table α n) :
    (t.map f).map g = t.map (fun x => g (f x)) := by
  simp [Table.map]

@[simp] theorem Table.get_map (f : α → β) (t : Table α n) (i : Fin n) : (t.map f).get i = f (t.get i) := by
  simp [Table.get, Table.map]

theorem mapFrom_getElem (f : Nat → α → β) (as : List α) (k i : Nat) (h : i < as.length) :
    (mapFrom f k as)[i]'(by rw [mapFrom_length]; exact h) = f (k + i) as[i] := by
  induction as generalizing k i with
  | nil => simp at h
  | cons a as ih =>
    cases i with
    | zero => simp [mapFrom]
    | succ i =>
      simp only [mapFrom, List.getElem_cons_succ]
      rw [ih (k + 1) i (by simpa using h)]
      congr 1
      omega

@[simp] theorem Table.get_mapIdx (f : Nat → α → β) (t : Table α n) (i : Fin n) :
    (t.mapIdx f).get i = f i.val (t.get i) := by
  have h := mapFrom_getElem f t.cells 0 i.val (by rw [t.size]; exact i.isLt)
  rw [Nat.zero_add] at h
  exact h

@[simp] theorem Table.get_zipWith (f : α → β → γ) (s : Table α n) (t : Table β n) (i : Fin n) :
    (Table.zipWith f s t).get i = f (s.get i) (t.get i) := by
  simp [Table.get, Table.zipWith]

end Sys2Proof.Machine
end

