-- ==== Sys2Proof/Laws/Reactions.lean ====
section
/-! SUPPORT. With no reaction in use a transition activates nothing, latches nothing and changes nothing. -/

namespace Sys2Proof.Machine

theorem Reaction.activates_unused {r : Reaction} (h : r.cfg.inUse = false) (b a : Bool) : r.activates b a = false := by
  simp [Reaction.activates, h]

theorem Reaction.latched_unused {r : Reaction} (h : r.cfg.inUse = false) (b a : Bool) : r.latched b a = r := by
  simp [Reaction.latched, h]

theorem activations_unused (before s : State) (h : s.NoReactions) : activations before s = [] := by
  have key : ∀ (rs : List Reaction) (k : Nat), (∀ r ∈ rs, r.cfg.inUse = false) →
      (mapFrom (fun i r =>
        let a := s.sourceLevel r.cfg.source
        if r.activates (before.sourceLevel r.cfg.source) a then some (⟨i, r.cfg, a⟩ : Activation) else none)
        k rs).filterMap id = [] := by
    intro rs
    induction rs with
    | nil => intros; rfl
    | cons r rs ih =>
      intro k hr
      simp only [mapFrom, Reaction.activates_unused (hr r (by simp))]
      exact ih (k + 1) (fun x hx => hr x (by simp [hx]))
  exact key _ _ h

theorem State.latchEdges_unused (s before : State) (h : s.NoReactions) : s.latchEdges before = s := by
  have key : s.trip.reactions.map
      (fun r => r.latched (before.sourceLevel r.cfg.source) (s.sourceLevel r.cfg.source)) = s.trip.reactions := by
    apply Table.ext_get
    intro i
    rw [Table.get_map, Reaction.latched_unused (h _ (s.trip.reactions.get_mem i))]
  unfold State.latchEdges
  rw [key]

/-- With no reaction in use the Trip Unit takes a transition without any effect (R165). -/
theorem reactWith_unused (once : ReactionKind → State → State) (before s : State) (h : s.NoReactions) :
    reactWith once before s = s := by
  unfold reactWith
  simp [activations_unused before s h, State.latchEdges_unused s before h, takeEach]

theorem State.reactFrom_unused (s before : State) (h : s.NoReactions) : s.reactFrom before = s :=
  reactWith_unused onceEffect before s h

end Sys2Proof.Machine
end

