-- ==== Sys2Proof/Laws/Reader.lean ====
section
/-! SUPPORT. The reader and the issue event come to rest: a delivery leaves the reader's fields alone, the loops of a
sealed show jump back over at least 100 ms of nominal time each, and so the turns of `State.turns` outlast what a sealed
show can have to read and issue (R34, R51, R57; log 12). -/

namespace Sys2Proof.Machine

/-! ### What a delivery leaves as it is -/

/-- The fields that the reader and the test for a due head read. -/
abbrev State.readerFields (s : State) :=
  (s.clock, s.store, s.seq.state, s.seq.cursor, s.seq.run, s.seq.loopOffset, s.seq.loopStack, s.seq.queue)

theorem State.refill_readerFields (s : State) : s.refill.readerFields = s.readerFields := by
  unfold State.refill
  split
  · split <;> rfl
  · rfl

theorem State.audioStart_readerFields (s : State) (i : Fin 4) (n : Nat) (p : Int) (g : Nat) :
    (s.audioStart i n p g).readerFields = s.readerFields := by
  unfold State.audioStart
  split
  · exact (State.refill_readerFields ((s.idleStream i).onStream i _)).trans rfl
  · rfl

theorem State.audioStop_readerFields (s : State) (i : Fin 4) (fade : Nat) :
    (s.audioStop i fade).readerFields = s.readerFields := by
  unfold State.audioStop
  split <;> first | rfl | (split <;> rfl)

/-- A delivery leaves the reader's fields as they are (R59). -/
theorem State.deliver_readerFields (s : State) (c : Cue) (nominal : Int) :
    (s.deliver c nominal).readerFields = s.readerFields := by
  unfold State.deliver
  split
  · rfl
  · rfl
  · rfl
  · exact s.audioStart_readerFields ..
  · exact s.audioStop_readerFields ..
  · rfl
  · rfl
  · rfl
  · rfl

/-- The issue of an entry leaves the reader's fields as they are (R57, R58). -/
theorem State.issueEntry_readerFields (s : State) (e : QueueEntry) :
    (s.issueEntry e).readerFields = s.readerFields := by
  unfold State.issueEntry
  split
  · refine (State.deliver_readerFields (s.takeFlag e.action) e.action e.nominal).trans ?_
    unfold State.takeFlag
    split <;> rfl
  · rfl

/-- What the removal and issue of a due head leaves: the reader's fields, with one entry fewer in the queue (R57). -/
theorem State.issueHead_readerFields {s : State} (h : s.headDue = true) :
    ∃ e es, s.seq.queue = e :: es ∧
      s.issueHead.readerFields = ({ s with seq := { s.seq with queue := es } } : State).readerFields := by
  unfold State.headDue at h
  cases hq : s.seq.queue with
  | nil => simp [hq] at h
  | cons e es => exact ⟨e, es, rfl, by rw [State.issueHead, hq]; exact State.issueEntry_readerFields _ e⟩

/-! ### What a sealed show gives the reader -/

/-- What the passes of a seal say of a show's loops (R32, R34). -/
structure LoopsAdvance (cs : List Cue) : Prop where
  ordered : ∀ i j (hi : i < cs.length) (hj : j < cs.length), i ≤ j → cs[i].time ≤ cs[j].time
  back : ∀ i (hi : i < cs.length) t n, cs[i].body = .loop t n → ∃ ht : t < i, (cs[t]'(by omega)).time + 100 ≤ cs[i].time
  uncrossed : ∀ i (hi : i < cs.length) t n, cs[i].body = .loop t n →
    ∀ j (hj : j < i) u m, (cs[j]'(by omega)).body = .loop u m → ¬ (u < t ∧ t ≤ j)

theorem orderFault_none : ∀ (k before : Nat) (cs : List Cue), orderFault k before cs = none →
    cs.Pairwise (fun a b => a.time ≤ b.time) ∧ ∀ c ∈ cs, before ≤ c.time
  | _, _, [], _ => ⟨.nil, by simp⟩
  | k, before, c :: cs, h => by
    unfold orderFault at h
    split at h
    · cases h
    · rename_i hc
      obtain ⟨hp, hb⟩ := orderFault_none (k + 1) c.time cs h
      refine ⟨.cons hb hp, ?_⟩
      intro d hd
      rcases List.mem_cons.1 hd with rfl | hd
      · omega
      · have := hb d hd
        omega

theorem mapFrom_getElem? {α β : Type} (f : Nat → α → β) : ∀ (k : Nat) (xs : List α) (i : Nat),
    (mapFrom f k xs)[i]? = (xs[i]?).map (f (k + i))
  | _, [], _ => by simp [mapFrom]
  | k, x :: xs, 0 => by simp [mapFrom]
  | k, x :: xs, i + 1 => by
    simp only [mapFrom, List.getElem?_cons_succ, mapFrom_getElem? f (k + 1) xs i]
    congr 2
    omega

theorem mem_loopsOf {cs : List Cue} {i t n : Nat} (hi : i < cs.length) (h : cs[i].body = .loop t n) :
    (i, t) ∈ loopsOf cs := by
  refine List.mem_filterMap.2 ⟨some (i, t), List.mem_of_getElem? (i := i) ?_, rfl⟩
  rw [mapFrom_getElem?, List.getElem?_eq_getElem hi]
  simp [h]

/-- A show in which no pass finds a fault has loops that advance (R31, R32, R34). -/
theorem LoopsAdvance.of_sealed {cs : List Cue} {effects : Nat} (h : sealFault cs effects = none) : LoopsAdvance cs := by
  unfold sealFault at h
  split at h
  · cases h
  · rename_i ho
    split at h
    · cases h
    · split at h
      · cases h
      · rename_i hl
        have hl' : ∀ l ∈ loopsOf cs, badLoop cs (loopsOf cs) l.1 l.2 = false := by
          unfold loopFault at hl
          intro l hm
          have := List.find?_eq_none.1 (Option.map_eq_none_iff.1 hl) l hm
          simpa using this
        have good : ∀ i (hi : i < cs.length) t n, cs[i].body = .loop t n → badLoop cs (loopsOf cs) i t = false :=
          fun i hi t n hb => hl' (i, t) (mem_loopsOf hi hb)
        refine ⟨?_, ?_, ?_⟩
        · intro i j hi hj hij
          rcases Nat.lt_or_eq_of_le hij with hlt | rfl
          · exact List.pairwise_iff_getElem.1 (orderFault_none 0 0 cs ho).1 i j hi hj hlt
          · exact Nat.le_refl _
        · intro i hi t n hb
          have g := good i hi t n hb
          simp only [badLoop, Bool.or_eq_false_iff, decide_eq_false_iff_not] at g
          have ht : t < i := by omega
          refine ⟨ht, ?_⟩
          have g2 := g.1.2
          simp only [timeAt, List.getElem?_eq_getElem hi, List.getElem?_eq_getElem (show t < cs.length by omega),
            Option.map_some, Option.getD_some] at g2
          omega
        · intro i hi t n hb j hj u m hu
          have g := (Bool.or_eq_false_iff.1 (good i hi t n hb)).2
          have := List.any_eq_false.1 g (j, u) (mem_loopsOf (by omega) hu)
          simp only [Bool.and_eq_true, decide_eq_true_eq, hj, true_and] at this
          exact this

/-! ### The measure of what is left to do -/

/-- The cues of the running show (R19). -/
def State.showCues (s : State) : List Cue := (s.store.cues.drop s.seq.run.first).take s.seq.run.count

theorem State.cueAt_showCues {s : State} {k : Nat} (h : k < s.seq.run.count) : s.cueAt k = s.showCues[k]? := by
  simp [State.cueAt, State.showCues, h]

/-- The jumps back still to come at one value of show position when none of them lies below the nominal time g. -/
def jumpsLeft (limit g : Int) : Nat := if g ≤ limit then (limit - g).toNat / 100 + 1 else 0

/-- A measure of the reads and issues still to come. -/
def State.work (s : State) (g : Int) : Nat :=
  2 * (4097 * jumpsLeft (s.clock.position + Config.lookAhead) g + (s.seq.run.count - s.seq.cursor)) +
    s.seq.queue.length

/-- No LOOP cue from the cursor on lies below the nominal time g. -/
def State.JumpsFrom (s : State) (g : Int) : Prop :=
  ∀ j (hj : j < s.showCues.length) t n, s.seq.cursor ≤ j → s.showCues[j].body = .loop t n →
    g ≤ s.showCues[j].time + s.seq.loopOffset

theorem jumpsLeft_pos {limit g : Int} (h : g ≤ limit) : 1 ≤ jumpsLeft limit g := by simp [jumpsLeft, h]

theorem jumpsLeft_step {limit g x : Int} (hg : g ≤ x) (hx : x ≤ limit) :
    jumpsLeft limit (x + 100) + 1 ≤ jumpsLeft limit g := by
  unfold jumpsLeft
  rw [if_pos (show g ≤ limit by omega)]
  by_cases h : x + 100 ≤ limit
  · rw [if_pos h]
    omega
  · rw [if_neg h]
    omega

/-! ### Each turn does some of the work -/

theorem State.readEntry_fields (s : State) (c : Cue) :
    (s.readEntry c).clock = s.clock ∧ (s.readEntry c).store = s.store ∧ (s.readEntry c).seq.state = s.seq.state ∧
      (s.readEntry c).seq.run = s.seq.run ∧ (s.readEntry c).seq.cursor = s.seq.cursor + 1 ∧
      (s.readEntry c).seq.loopOffset = s.seq.loopOffset ∧
      (s.readEntry c).seq.queue = insertEntry (s.entryFor c).1 s.seq.queue := by
  unfold State.readEntry State.reportLate
  dsimp only
  split <;> exact ⟨rfl, rfl, rfl, rfl, rfl, rfl, rfl⟩

theorem length_insertEntry (e : QueueEntry) : ∀ q : List QueueEntry, (insertEntry e q).length = q.length + 1
  | [] => rfl
  | x :: q => by
    unfold insertEntry
    split
    · simp [length_insertEntry e q]
    · rfl

/-- A turn of the reader: it passes the cue on, or it jumps back at a LOOP cue with its nominal time kept (R51 to R53). -/
theorem State.readCue_cases (s : State) (c : Cue) :
    (s.readCue c).clock = s.clock ∧ (s.readCue c).store = s.store ∧ (s.readCue c).seq.run = s.seq.run ∧
      (s.readCue c).seq.queue.length ≤ s.seq.queue.length + 1 ∧
      ((s.readCue c).seq.cursor = s.seq.cursor + 1 ∧ (s.readCue c).seq.loopOffset = s.seq.loopOffset ∨
        (s.readCue c).seq.queue = s.seq.queue ∧ ∃ t n, c.body = .loop t n ∧ (s.readCue c).seq.cursor = t ∧
          ∀ u, s.cueAt t = some u →
            (s.readCue c).seq.loopOffset = s.seq.loopOffset + ((c.time : Int) - u.time)) := by
  unfold State.readCue
  split
  · rename_i t n hb
    obtain ⟨e, es, hp⟩ : ∃ e es, pushLoop s.seq.loopStack s.seq.cursor n = e :: es := by
      unfold pushLoop
      split
      · split <;> exact ⟨_, _, rfl⟩
      · exact ⟨_, _, rfl⟩
    simp only [State.readLoop, hp]
    split
    · exact ⟨rfl, rfl, rfl, Nat.le_succ _, .inl ⟨rfl, rfl⟩⟩
    · refine ⟨rfl, rfl, rfl, Nat.le_succ _, .inr ⟨rfl, t, n, hb, rfl, ?_⟩⟩
      intro u hu
      simp [hu]
  · obtain ⟨h1, h2, -, h4, h5, h6, h7⟩ := s.readEntry_fields c
    exact ⟨h1, h2, h4, Nat.le_of_eq (by rw [h7, length_insertEntry]), .inl ⟨h5, h6⟩⟩

/-- What a cue taken by the reader is (R51). -/
theorem State.nextCue_some {s : State} {c : Cue} (h : s.nextCue = some c) :
    s.seq.cursor < s.seq.run.count ∧ s.cueAt s.seq.cursor = some c ∧ s.nominal c ≤ s.clock.position + Config.lookAhead := by
  unfold State.nextCue at h
  split at h
  · rename_i hc
    split at h
    · rename_i d hd
      split at h
      · rename_i hn
        cases h
        exact ⟨hc.2.1, hd, hn⟩
      · cases h
    · cases h
  · cases h

/-- The issue of a due head does some of the work (R57). -/
theorem State.issueHead_work {s : State} (h : s.headDue = true) (g : Int) (hj : s.JumpsFrom g) :
    s.issueHead.showCues = s.showCues ∧ s.issueHead.seq.run = s.seq.run ∧ s.issueHead.JumpsFrom g ∧
      s.issueHead.work g + 1 ≤ s.work g := by
  obtain ⟨e, es, hq, hf⟩ := State.issueHead_readerFields h
  simp only [Prod.mk.injEq] at hf
  obtain ⟨h1, h2, -, h4, h5, h6, -, h8⟩ := hf
  have hc : s.issueHead.showCues = s.showCues := by simp [State.showCues, h2, h5]
  refine ⟨hc, h5, ?_, ?_⟩
  · intro j hjl t n hcur hb
    simp only [hc] at hjl hb ⊢
    rw [h4] at hcur
    rw [h6]
    exact hj j hjl t n hcur hb
  · simp only [State.work, h1, h4, h5, h8, hq, List.length_cons]
    omega

/-- A turn of the reader does some of the work (R34, R51 to R53). -/
theorem State.readCue_work {s : State} {c : Cue} (h : s.nextCue = some c) (g : Int) (hj : s.JumpsFrom g)
    (hl : LoopsAdvance s.showCues) (hn : s.seq.run.count ≤ 4096) :
    (s.readCue c).showCues = s.showCues ∧ (s.readCue c).seq.run = s.seq.run ∧
      ∃ g', (s.readCue c).JumpsFrom g' ∧ (s.readCue c).work g' + 1 ≤ s.work g := by
  obtain ⟨hcur, hat, hnom⟩ := State.nextCue_some h
  obtain ⟨h1, h2, h3, h4, hcase⟩ := s.readCue_cases c
  have hc : (s.readCue c).showCues = s.showCues := by simp [State.showCues, h2, h3]
  rw [State.cueAt_showCues hcur] at hat
  obtain ⟨hlen, hcur'⟩ := List.getElem?_eq_some_iff.1 hat
  refine ⟨hc, h3, ?_⟩
  rcases hcase with ⟨h5, h6⟩ | ⟨h5, t, n, hb, h6, h7⟩
  · refine ⟨g, ?_, ?_⟩
    · intro j hjl u m hle hbj
      simp only [hc] at hjl hbj ⊢
      rw [h6]
      exact hj j hjl u m (by omega) hbj
    · simp only [State.work, h1, h3, h5]
      omega
  · rw [← hcur'] at hb
    obtain ⟨ht, htime⟩ := hl.back _ hlen t n hb
    have htl : t < s.showCues.length := by omega
    have h7' := h7 (s.showCues[t]) (by
      rw [State.cueAt_showCues (by omega), List.getElem?_eq_getElem htl])
    have hg : g ≤ s.showCues[s.seq.cursor].time + s.seq.loopOffset := hj _ hlen t n (Nat.le_refl _) hb
    rw [State.nominal, ← hcur'] at hnom
    refine ⟨s.showCues[s.seq.cursor].time + s.seq.loopOffset + 100, ?_, ?_⟩
    · intro j hjl u m hle hbj
      simp only [hc] at hjl hbj ⊢
      rw [h6] at hle
      rw [h7']
      have same : (c.time : Int) = s.showCues[s.seq.cursor].time := by rw [hcur']
      have key : s.showCues[t].time + 100 ≤ s.showCues[j].time := by
        rcases Nat.lt_or_ge j s.seq.cursor with hlt | hge
        · obtain ⟨hu, hut⟩ := hl.back j hjl u m hbj
          have hnc := hl.uncrossed _ hlen t n hb j hlt u m hbj
          have : t ≤ u := by omega
          have := hl.ordered t u htl (by omega) this
          omega
        · have := hl.ordered _ j hlen hjl hge
          omega
      omega
    · have hs := jumpsLeft_step hg hnom
      simp only [State.work, h1, h3, h5, h6]
      omega

/-- With turns enough for the work, the reader and the issue event come to rest (R51, R57). -/
theorem readAndIssue_rest : ∀ (fuel : Nat) (s : State) (g : Int), LoopsAdvance s.showCues → s.seq.run.count ≤ 4096 →
    s.JumpsFrom g → s.work g ≤ fuel →
    (readAndIssue fuel s).headDue = false ∧ (readAndIssue fuel s).nextCue = none
  | fuel, s, g, hl, hn, hj, hw => by
    cases hd : s.headDue with
    | true =>
      obtain ⟨h1, h2, h3, h4⟩ := State.issueHead_work hd g hj
      cases fuel with
      | zero => omega
      | succ fuel =>
        simp only [readAndIssue, hd, if_true]
        exact readAndIssue_rest fuel _ g (h1 ▸ hl) (h2 ▸ hn) h3 (by omega)
    | false =>
      cases hc : s.nextCue with
      | some c =>
        obtain ⟨h1, h2, g', h3, h4⟩ := State.readCue_work hc g hj hl hn
        cases fuel with
        | zero => omega
        | succ fuel =>
          simp only [readAndIssue, hd, hc, Bool.false_eq_true, if_false]
          exact readAndIssue_rest fuel _ g' (h1 ▸ hl) (h2 ▸ hn) h3 (by omega)
      | none => cases fuel <;> simp [readAndIssue, hd, hc]

/-- `State.turns` is enough for a sealed show (R34; log 12). -/
theorem readAndIssue_turns {s : State} (hl : LoopsAdvance s.showCues) (hn : s.seq.run.count ≤ 4096)
    (hq : s.seq.queue.length ≤ Config.queueMax) :
    ∃ g, s.JumpsFrom g ∧ s.work g ≤ s.turns := by
  by_cases hlen : s.seq.cursor < s.showCues.length
  · have hcount : s.seq.cursor < s.seq.run.count := by
      have : s.showCues.length ≤ s.seq.run.count := List.length_take_le _ _
      omega
    have hat : s.cueAt s.seq.cursor = some s.showCues[s.seq.cursor] := by
      rw [State.cueAt_showCues hcount, List.getElem?_eq_getElem hlen]
    refine ⟨s.nominal s.showCues[s.seq.cursor], ?_, ?_⟩
    · intro j hjl t n hle hb
      have := hl.ordered _ j hlen hjl hle
      simp only [State.nominal]
      omega
    · simp only [State.turns, hat, State.work, jumpsLeft]
      split <;> omega
  · refine ⟨s.clock.position + Config.lookAhead + 1, ?_, ?_⟩
    · intro j hjl t n hle
      omega
    · simp only [State.work, jumpsLeft]
      rw [if_neg (by omega)]
      simp only [State.turns]
      generalize (match s.cueAt s.seq.cursor with
        | some c => (s.clock.position + Config.lookAhead - s.nominal c).toNat
        | none => 0) = behind
      omega

/-- After the turns of `State.turns` on a sealed show no head is due and the reader takes no cue (R51, R57; log 12). -/
theorem readAndIssue_turns_rest {s : State} {effects : Nat} (h : sealFault s.showCues effects = none)
    (hn : s.seq.run.count ≤ 4096) (hq : s.seq.queue.length ≤ Config.queueMax) :
    (readAndIssue s.turns s).headDue = false ∧ (readAndIssue s.turns s).nextCue = none := by
  obtain ⟨g, hj, hw⟩ := readAndIssue_turns (LoopsAdvance.of_sealed h) hn hq
  exact readAndIssue_rest _ s g (LoopsAdvance.of_sealed h) hn hj hw

end Sys2Proof.Machine
end

