-- ==== Sys2Proof/Laws/Reset.lean ====
section
/-! SUPPORT. What a cut-off flash operation and the reset values of the blocks leave as they are, and what those values
are. -/

namespace Sys2Proof.Machine

/-! ### The blocks at their reset values -/

@[simp] theorem State.freshBlocks_phase (s : State) (img : Image) (now : PlantTime) :
    (s.freshBlocks img now).phase = s.phase := rfl
@[simp] theorem State.freshBlocks_baud (s : State) (img : Image) (now : PlantTime) :
    (s.freshBlocks img now).baud = s.baud := rfl
@[simp] theorem State.freshBlocks_store (s : State) (img : Image) (now : PlantTime) :
    (s.freshBlocks img now).store = s.store := rfl
@[simp] theorem State.freshBlocks_trip (s : State) (img : Image) (now : PlantTime) :
    (s.freshBlocks img now).trip = s.trip := rfl
@[simp] theorem State.freshBlocks_flash (s : State) (img : Image) (now : PlantTime) :
    (s.freshBlocks img now).flash = s.flash := rfl
@[simp] theorem State.freshBlocks_link (s : State) (img : Image) (now : PlantTime) :
    (s.freshBlocks img now).link = s.link := rfl
@[simp] theorem State.freshBlocks_free (s : State) (img : Image) (now : PlantTime) :
    (s.freshBlocks img now).free = s.free := rfl
@[simp] theorem State.freshBlocks_pending (s : State) (img : Image) (now : PlantTime) :
    (s.freshBlocks img now).pending = s.pending := rfl

/-- The blocks at their reset values hold the configuration they were given; the shows, the conditions and the reactions
are the state's own. -/
theorem State.freshBlocks_configuration (s : State) (img : Image) (now : PlantTime) :
    (s.freshBlocks img now).configuration =
      { img with dir := s.store.dir, cues := s.store.cues, conditions := s.trip.conditions.map (·.cfg),
                 reactions := s.trip.reactions.map (·.cfg) } := by
  simp only [State.freshBlocks, State.configuration, ShowClock.fresh, JetUnit.fresh, WaterUnit.fresh, WindGov.fresh,
    LightUnit.fresh, AudioUnit.fresh, OutputUnit.fresh, Table.map_map]
  congr 1 <;> apply Table.ext_get <;> intro i
  case e_reserves =>
    match i with
    | 0 => rfl
    | 1 => rfl
  all_goals simp [Table.get, Table.map]

theorem hasWindPulse_iff (cs : Table ConditionCfg 24) :
    hasWindPulse cs = true ↔ ∃ c ∈ cs.cells, c.role = .windPulse := by
  simp [hasWindPulse]

/-- The blocks as a reset gives them stand at their reset values (R199, step 2). -/
theorem State.freshBlocks_atResetValues (s : State) (img : Image) (now : PlantTime) :
    (s.freshBlocks img now).AtResetValues img now := by
  refine ⟨⟨rfl, rfl⟩, ⟨rfl, fun c => ?_⟩, ⟨fun p => ?_, rfl, fun m => ?_⟩, ⟨fun h => ?_, fun h => ?_, fun z => ?_, rfl⟩,
    ⟨fun x => ?_, rfl⟩, ⟨fun i => ?_, rfl⟩, rfl, rfl, rfl, rfl⟩
  · simp [State.freshBlocks, JetUnit.fresh, ChannelLive.fresh, Fade.zero]
  · simp [State.freshBlocks, WaterUnit.fresh, PumpLive.fresh]
  · match m with
    | 0 => rfl
    | 1 => rfl
  · simp [State.freshBlocks, WindGov.fresh, (hasWindPulse_iff _).2 h]
  · simp [State.freshBlocks, WindGov.fresh, mt (hasWindPulse_iff _).1 h]
  · simp [State.freshBlocks, WindGov.fresh, ZoneCfg.factor]
  · simp [State.freshBlocks, LightUnit.fresh, FixtureLive.fresh, Colour.black]
  · match i with
    | 0 => rfl
    | 1 => rfl
    | 2 => rfl
    | 3 => rfl

/-! ### A flash operation cut off by a reset -/

/-- Free bytes in the flash change the flash and the free counter alone. -/
theorem State.spoilJob_frame (s : State) (job : FlashJob) :
    s.spoilJob job = { s with flash := (s.spoilJob job).flash, free := (s.spoilJob job).free } := by
  have key : ∀ a n, s.spoil a n = { s with flash := (s.spoil a n).flash, free := (s.spoil a n).free } :=
    fun _ _ => rfl
  unfold State.spoilJob
  split
  · rfl
  · exact key _ _

/-- A reset that cuts an operation off changes the flash and the free counter alone. -/
theorem State.abandonFlash_frame (s : State) :
    s.abandonFlash = { s with flash := s.abandonFlash.flash, free := s.abandonFlash.free } := by
  have key : ∀ (t : State) (f : FlashUnit → FlashUnit), t = { s with flash := t.flash, free := t.free } →
      t.onFlash f = { s with flash := (t.onFlash f).flash, free := (t.onFlash f).free } := by
    intro t f h
    rw [h]
    rfl
  unfold State.abandonFlash
  split
  · apply key
    split
    · exact s.spoilJob_frame _
    · rfl
  · rfl

end Sys2Proof.Machine
end

