-- ==== Sys2Proof/Tests/Slice0.lean ====
section
/-! SUPPORT. The model's own tests: the manual's worked numbers, ill-formed terms, one step of each command on a small
state, and for each statement with hypotheses concrete values that meet them. Each expected value comes from the manual's
worked sequence or from a rule, named in the test's comment. -/

namespace Sys2Proof.Tests

open Sys2Proof Sys2Proof.Machine

/-! ### Helpers -/

/-- What a command leaves, looked at in one place; none when it stops. -/
def ran {α : Type} (c : Instr) (s : State) (look : State → α) : Option α :=
  match exec c s with
  | .next t => some (look t)
  | .fault _ => none
  | .refused _ => none

/-- Whether an outcome is a next state. -/
def goesOn : Host.Outcome State Fault Refusal → Bool
  | .next _ => true
  | .fault _ => false
  | .refused _ => false

/-- The payload of the reply that joined last, on a line that is busy. -/
def lastReply (s : State) : List Byte := (s.link.replies.getLast?.map (·.payload)).getD []

/-- The state after reset with a frame on the line, so that replies stay in the list. -/
def safe : State :=
  { State.reset with link := { State.reset.link with line := some { bytes := [], thenReset := false } } }

/-- The same in LIVE. -/
def live : State := { safe with out := { safe.out with mode := .live } }

/-- LIVE with the sequencer in a state, an EXTERNAL clock in a state, and a show position. -/
def running (q : SeqState) (c : ClockState) (p : Int) : State :=
  { live with seq := { live.seq with state := q, running := some 5 },
              clock := { live.clock with source := .external, state := c, position := p } }

/-- A state with plant time set. -/
def at_ (s : State) (n : Nat) : State := { s with clock := { s.clock with plantTime := BitVec.ofNat 32 n } }

/-- A state with the record of pump 0 changed. -/
def pump0 (s : State) (f : Pump → Pump) : State :=
  { s with water := { s.water with pumps := s.water.pumps.modify 0 f } }

/-- A state with the record of channel 0 changed. -/
def channel0 (s : State) (f : Channel → Channel) : State :=
  { s with jets := { s.jets with channels := s.jets.channels.modify 0 f } }

/-- A state with the record of stream 0 changed. -/
def stream0 (s : State) (f : Stream → Stream) : State :=
  { s with audio := { s.audio with streams := s.audio.streams.modify 0 f } }

/-- A state with condition 0 changed. -/
def condition0 (s : State) (f : Condition → Condition) : State :=
  { s with trip := { s.trip with conditions := s.trip.conditions.modify 0 f } }

/-- A state with reaction 0 replaced. -/
def reaction0 (s : State) (r : Reaction) : State :=
  { s with trip := { s.trip with reactions := s.trip.reactions.set 0 r } }

/-- A state with a store. -/
def stored (s : State) (dir0 : ShowEntry) (cues : List Cue) : State :=
  { s with store := { dir := s.store.dir.set 0 dir0, cues := cues } }

/-- A state with an operation on the flash and its request outstanding. -/
def flashing (s : State) (holding : Bool) (job : FlashJob) : State :=
  { s with flash := { s.flash with op := some { tag := 9, job := job, holding := holding, started := 0 } },
           link := { s.link with outstanding := true } }

/-- A directory entry with a state and a count of cues, from store index 0, with a pre-roll of 2000, an EXTERNAL
clock and an end fade. -/
def entry (st : ShowState) (count endFade : Nat) : ShowEntry :=
  { state := st, first := 0, count := count, track := none, preRoll := 2000, endFade := endFade, effects := 1,
    source := .external }

/-- A MARK cue at a time. -/
def markCue (time : Nat) : Cue := { time := time, cond := .always, arg := 0, target := 0, group := false, body := .mark 7 }

/-- A LOOP cue at a time. -/
def loopCue (time target count : Nat) : Cue :=
  { time := time, cond := .always, arg := 0, target := 0, group := false, body := .loop target count }

/-- A queue entry of a cue. -/
def queued (c : Cue) (issue : Int) : QueueEntry :=
  { cue := 0, nominal := issue, action := c, issueTime := issue, late := false }

/-- A reaction in use. -/
def reaction (source : ReactionSource) (trigger : Trigger) (kind : ReactionKind) : Reaction :=
  { cfg := { inUse := true, source := source, trigger := trigger, release := .hostWhenInactive, kind := kind },
    latch := false }

/-! ### Ill-formed terms (WellFormed.lean) -/

/-- Fields for a CHANNEL_CONFIG with a curve. -/
def channelArgs (curve : List Half) : ChannelArgs :=
  { channel := 0, manifold := 0, zone := 1, type := 0, level := 2, kn := 200, curve := curve, switchedFlow := 0,
    lead := 4000, normalSlew := 20, tripSlew := 1000 }

/-- Fields for a WIND_CONFIG with thresholds and zones. -/
def windArgs (thresholds : List Half) (zones : List ZoneArgs) : WindArgs :=
  { k := 725, thresholds := thresholds, hysteresis := 15, calmHold := 20, zones := zones }

/-- The worked sequence's thresholds (06_wind_governor.md). -/
def gustThresholds : List Half := [40, 70, 100, 130, 160, 200, 250]

/-- The worked sequence's zone table (06_wind_governor.md). -/
def gustZone : ZoneArgs := { factors := [256, 256, 240, 220, 190, 160, 120, 0], drop := 20, recover := 4 }

theorem test_wf_refuses_short_curve :
    (Instr.channelConfig 1 (channelArgs (List.replicate 8 0))).wf = false ∧
      (Instr.channelConfig 1 (channelArgs (List.replicate 9 0))).wf = true := by decide

theorem test_wf_refuses_missing_threshold :
    (Instr.windConfig 1 (windArgs [40, 70, 100, 130, 160, 200] (List.replicate 4 gustZone))).wf = false := by decide

theorem test_wf_refuses_missing_zone :
    (Instr.windConfig 1 (windArgs gustThresholds (List.replicate 3 gustZone))).wf = false := by decide

theorem test_wf_refuses_short_factors :
    (Instr.windConfig 1 (windArgs gustThresholds
      (List.replicate 4 { gustZone with factors := [256] }))).wf = false ∧
      (Instr.windConfig 1 (windArgs gustThresholds (List.replicate 4 gustZone))).wf = true := by decide

theorem test_wf_refuses_short_page :
    (Instr.flashWrite 1 0 (List.replicate 255 0)).wf = false ∧
      (Instr.flashWrite 1 0 (List.replicate 256 0)).wf = true := by decide +kernel

theorem test_wf_refuses_long_payloads :
    (Instr.showAppend 1 (List.replicate 1025 0)).wf = false ∧ (Instr.inputConfig 1 (List.replicate 1025 0)).wf = false ∧
      (Instr.frameComplete 1 1 (List.replicate 1025 0)).wf = false ∧
      (Instr.frameComplete 1 1 (List.replicate 1024 0)).wf = true := by decide +kernel

theorem test_wf_refuses_short_drive_reply :
    (Instr.driveReply [0x3E, 1, 0, 0, 0, 0]).wf = false ∧ (Instr.driveReply [0x3E, 1, 0, 0, 0, 0, 0xC1]).wf = true := by
  decide

/-! ### The manual's worked numbers -/

/-- The check value of CRC-16/CCITT with initial value 0xFFFF, and of the CRC-32 (R185, R197; the values are the two
CRCs' published ones). -/
theorem test_crc_check_values :
    crc16 [0x31, 0x32, 0x33, 0x34, 0x35, 0x36, 0x37, 0x38, 0x39] = 0x29B1#16 ∧
      crc32 [0x31, 0x32, 0x33, 0x34, 0x35, 0x36, 0x37, 0x38, 0x39] = 0xCBF43926#32 := by decide +kernel

/-- A fade interrupted (04_jet_channels.md, Worked example). -/
theorem test_fade_interrupted :
    let f : Fade := { start := 0, target := 3000, t0 := 200000, duration := 4000, held := false }
    f.valueAt 201500 = 1125 ∧ f.restart 201530 800 1000 =
      { start := 1147, target := 800, t0 := 201530, duration := 1000, held := false } ∧
      (f.restart 201530 800 1000).valueAt 201600 = 1123 ∧ (f.restart 201530 800 1000).valueAt 202530 = 800 := by
  decide

/-- Effective heights and demands of c0, c2 and c3 (04_jet_channels.md, Worked example). -/
theorem test_demands_before_the_fault :
    effectiveHeight 1200 230 = 1078 ∧ intSqrt 275968 = 525 ∧ proportionalDemand 120 1078 = 246 ∧
      proportionalDemand 200 2000 = 559 ∧ proportionalDemand 90 800 = 159 := by decide +kernel

/-- The curve of c2 (04_jet_channels.md). -/
def curve2 : List Nat := [0, 40, 110, 200, 300, 400, 480, 540, 580]

/-- The curve of c3 (04_jet_channels.md). -/
def curve3 : List Nat := [0, 20, 50, 90, 130, 170, 200, 220, 240]

/-- Curve openings before and after the pump fault (04_jet_channels.md), and the two ends of a curve (R81). -/
theorem test_curve_openings :
    curveOpening curve2 559 = 934 ∧ curveOpening curve3 159 = 590 ∧ curveOpening curve2 224 = 405 ∧
      curveOpening curve3 63 = 290 ∧ curveOpening curve2 580 = 1000 ∧ curveOpening curve2 0 = 0 := by decide

/-- The first slews after the fault, and the last one of c2 (04_jet_channels.md). -/
theorem test_slews_after_the_fault :
    moveToward 934 405 20 20 = 914 ∧ moveToward 590 290 30 30 = 560 ∧ moveToward 414 405 20 20 = 405 := by decide

/-- The four offers of the worked example (05, The budget through a pump fault). -/
def offers : List Offer :=
  [⟨246, 1, .proportional, false⟩, ⟨246, 1, .proportional, false⟩, ⟨559, 2, .proportional, false⟩,
    ⟨159, 2, .proportional, false⟩]

/-- The grants with a usable flow of 780 (05, Worked example). -/
theorem test_budget_through_a_pump_fault :
    offers.map (fun o => o.grant 7 (planLevels 7 offers servedLevels 780)) =
      [(246, .full), (246, .full), (224, .short), (63, .short)] ∧
      summaryOf 7 1080 780 offers (planLevels 7 offers servedLevels 780) =
        { admitLevel := 7, available := 1080, usable := 780,
          levels := [⟨0, .empty⟩, ⟨492, .full⟩, ⟨718, .scaled⟩, ⟨0, .empty⟩, ⟨0, .empty⟩, ⟨0, .empty⟩, ⟨0, .empty⟩],
          scaled := some 2, granted := 779, unallocated := 1 } := by decide

/-- The grants with a switched channel at the scaled level, and with a reserve of 700 instead (05, Worked example). -/
theorem test_switched_channel_at_a_scaled_level :
    let os := offers ++ [⟨150, 2, .switched, false⟩, ⟨100, 3, .proportional, false⟩]
    os.map (fun o => (o.grant 7 (planLevels 7 os servedLevels 1300)).1) = [246, 246, 559, 159, 0, 0] ∧
      os.map (fun o => (o.grant 7 (planLevels 7 os servedLevels 1400)).1) = [246, 246, 559, 159, 150, 40] := by decide

/-- Contributions of the two pumps (05, Worked example). -/
theorem test_flow_contributions :
    let p := fun a : Nat => ({ cfg := { PumpCfg.factory with ratedFlow := 1200 },
                               live := { PumpLive.fresh .factory with actual := a } } : Pump)
    (p 900).flow = 1080 ∧ (p 850).flow = 1020 := by decide

/-- The ramp of the worked sequence (05, A ramp to speed), and a ramp above 20 000 (R95). -/
theorem test_ramp_steps :
    rampStep 0 700 4000 = 5 ∧ rampStep 698 700 4000 = 700 ∧ rampStep 700 0 0 = 0 ∧ rampStep 10 0 20001 = 9 := by decide

/-- Gate speeds and the band they lead to (06, A gust and its calm). -/
theorem test_gate_speeds :
    gateSpeed 725 12 = 87 ∧ gateSpeed 725 20 = 145 ∧ gateSpeed 725 22 = 160 ∧
      (⟨145, 145, 87⟩ : SpeedHistory).average = 125 ∧ WindCfg.factory.bandFor 92 = 2 ∧
      WindCfg.factory.bandFor 125 = 3 ∧ WindCfg.factory.bandFor 150 = 4 := by decide

/-- What the jets see of a gust (06, the table of applied factors). -/
theorem test_jets_in_the_gust :
    effectiveHeight 3000 240 = 2813 ∧ effectiveHeight 3000 190 = 2227 ∧ proportionalDemand 150 3000 = 513 ∧
      proportionalDemand 150 2813 = 497 ∧ proportionalDemand 150 2578 = 476 ∧ proportionalDemand 150 2227 = 442 := by
  decide +kernel

/-- Trim steps of the gust (06). -/
theorem test_trim_steps :
    moveToward 256 240 4 20 = 240 ∧ moveToward 220 190 4 20 = 200 ∧ moveToward 200 190 4 20 = 190 := by decide

/-- A colour fade at 400 ms and its output bytes at intensity 200 and at the dry limit (07, Worked example). -/
theorem test_colour_fade :
    let f : ColourFade := { start := ⟨0, 0, 65535, 0⟩, target := .widen 255 128 0 64, t0 := 0, duration := 1000,
                            held := false }
    f.valueAt 400 = ⟨26214, 13158, 39321, 6579⟩ ∧
      [102, 51, 153, 25].map (outputByte · 200) = [80, 40, 120, 20] ∧
      [255, 128, 0, 64].map (outputByte · 26) = [26, 13, 0, 7] := by decide

/-- Snaps of marks (01, Worked sequence), and the halfway point, which goes up (R11). -/
theorem test_snaps :
    snapAmount 1179 = -179 ∧ snapAmount 8000 = 0 ∧ snapAmount 1500 = 500 ∧ snapAmount 1499 = -499 := by decide

/-- The resync after a mark snap (08, Worked sequence): e is 8592, the jump goes to frame 48 752. -/
theorem test_resync_numbers :
    let t : Stream := { Stream.fresh 8 with state := .playing, framesOutput := 56832 }
    let s := stream0 (running .playing .locked 1005) (fun _ => t)
    let u := t.jump (some { start := 16777216, frames := 9000000, format := .stereo16 }) (48 * 1005 + 512)
    s.slipError = 8592 ∧ u.framesOutput = 48752 ∧ u.leftToRead = 8951248 ∧ u.leftToPlay = 8951248 ∧
      u.nextAddress = 16972224 ∧ u.silenceLeft = 512 := by decide

/-- The seal of the worked sequence (02): the loops at 30 and 41 cross with targets 20 and 25, and nest with 20 and 18.
Here the cues in between are left out, so the loops stand at 3 and 5. -/
theorem test_seal_refuses_crossed_loops :
    let cs := fun t : Nat =>
      [markCue 46500, markCue 48000, markCue 52000, loopCue 56000 1 1, markCue 60000, loopCue 63500 t 1]
    sealFault (cs 2) 1 = some (.badLoop, 5) ∧ sealFault (cs 0) 1 = none := by decide

/-- The filter of the worked sequence (09): with W 8 and T 6 the sixth opposite sample flips the level. -/
theorem test_filter_of_the_intrusion :
    let c : Condition := { cfg := { ConditionCfg.factory with window := 8, threshold := 6 }, prescaleCount := 0,
                           due := true, history := List.replicate 8 false, filtered := false }
    (iter (·.filter true) 5 c).filtered = false ∧ (iter (·.filter true) 6 c).filtered = true := by decide

/-! ### One step of each command -/

/-- The queue: the front command is taken, the rest waits; an empty queue idles (log 2). -/
theorem test_step_takes_the_front :
    step (safe.withPending [.clockConfig 1 20, .gateEnd]) = exec (.clockConfig 1 20) (safe.withPending [.gateEnd]) ∧
      ran (.clockConfig 1 20) (safe.withPending [.gateEnd]) (·.pending) = some [.gateEnd] := ⟨rfl, by decide⟩

/-- R199: a taken RESET discards what follows; the pin's release starts at plant time 0. -/
theorem test_reset_discards_later_frames :
    ran (.reset 1) safe (·.link.resetTaken) = some true ∧
      ran (.clockConfig 2 20) { safe with link := { safe.link with resetTaken := true } } (·.clock.stepTimeout) =
        some 5 := by decide

theorem test_resetPin_restarts_plant_time :
    ran .resetPin { at_ live 77 with phase := .heldLow } (fun t => (t.phase, t.clock.plantTime, t.out.mode)) =
      some (.resetting, 0, .safe) := by decide

/-- R176, R178, R199: as the reset begins the mode is SAFE, no show runs and the pumps stand at 0. -/
theorem test_resetPin_stops_the_show :
    ran .resetPin { pump0 (running .playing .locked 9) (fun p => { p with live := { p.live with
        state := .running, target := 500, commanded := 500 } }) with phase := .heldLow }
      (fun t => (t.out.mode, t.seq.state, (t.water.pumps.get 0).live.target, (t.water.pumps.get 0).live.commanded)) =
        some (.safe, .idle, 0, 0) := by decide

theorem test_resetPinHeldLow_holds :
    ran .resetPinHeldLow live (fun t => (t.phase, t.shown 0 { OutputCfg.factory with safeLevel := true })) =
      some (.heldLow, .low) := by decide

/-- R198: a save cut off while it only waits for the interface leaves no valid image either. -/
theorem test_resetPinHeldLow_invalidates_a_waiting_save :
    let s := flashing safe false (.save Image.factory (.erasing 0))
    ran .resetPinHeldLow { s with flash := { s.flash with image := some Image.factory } }
      (fun t => (t.flash.op.isSome, t.flash.image.isSome)) = some (false, false) := by decide

/-- R199: start-up reads the strap and the lines, and START is pending (R194). -/
theorem test_resetSequence_reads_the_strap :
    ran (.resetSequence .b921600 3) { safe with phase := .resetting }
      (fun t => (t.phase, t.baud, t.trip.samples, (t.link.notices.get 7).pending)) =
        some (.running, .b921600, 3, true) := by decide

/-- R196: the reply carries the mask in force. -/
theorem test_noticeMask_replies_the_mask :
    ran (.noticeMask 1 0x0F) safe (fun t => (t.link.mask, lastReply t)) = some (0x0F, [0, 0x0F]) := by decide

theorem test_saveImage_waits_for_completion :
    ran (.saveImage 0x31) safe (fun t => (t.link.outstanding, t.flash.op.isSome, t.link.replies)) =
      some (true, true, []) := by decide

/-- R16: 20 is taken and 21 is not. -/
theorem test_clockConfig_range :
    ran (.clockConfig 1 20) safe (·.clock.stepTimeout) = some 20 ∧
      ran (.clockConfig 1 21) safe (·.clock.stepTimeout) = some 5 := by decide

/-- R17, R190: plant time, show position, state, source, timeout, mark count, last snap, holdover count. -/
theorem test_clockRead_fields :
    ran (.clockRead 1) (at_ (running .playing .locked (-2)) 258) lastReply =
      some [0, 2, 1, 0, 0, 0xFE, 0xFF, 0xFF, 0xFF, 1, 1, 5, 0, 0, 0, 0, 0, 0, 0] := by decide

/-- R29: the reply carries the first store index. -/
theorem test_showOpen_opens_above_the_used_records :
    ran (.showOpen 1 { number := 3, track := 12, preRoll := 3000, endFade := 4000, effects := 1, source := 1 })
      (stored safe (entry .ready 2 0) [markCue 1, markCue 2])
      (fun t => ((t.store.dir.get 3).state, lastReply t)) = some (ShowState.loading, [0, 2, 0]) := by decide

/-- R30, R191: a MARK 9 record at time 258 ms joins the LOADING show. -/
theorem test_showAppend_takes_a_record :
    ran (.showAppend 1 ([0] ++ [2, 1, 0, 5, 0, 0, 0, 0, 9, 0, 0, 0, 0, 0, 0, 0]))
      (stored safe (entry .loading 0 0) []) (fun t => (t.store.cues.map (·.time), lastReply t)) =
        some ([258], [0, 1, 0]) := by decide

/-- R31: a show in order is READY; R32: a falling time is BAD_ORDER at its cue. -/
theorem test_showSeal_judges_order :
    ran (.showSeal 1 0) (stored safe (entry .loading 2 0) [markCue 5, markCue 5]) (fun t => (t.store.dir.get 0).state) =
        some .ready ∧
      ran (.showSeal 1 0) (stored safe (entry .loading 2 0) [markCue 5, markCue 4])
        (fun t => ((t.store.dir.get 0).state, lastReply t)) = some (.loading, [10, 1, 0]) := by decide

theorem test_showErase_empties :
    ran (.showErase 1 0) (stored safe (entry .ready 2 0) [markCue 5, markCue 6])
      (fun t => (t.store.dir.get 0, t.store.cues)) = some (.blank, []) := by decide

theorem test_showInfo_of_a_number_out_of_range :
    ran (.showInfo 1 16) safe lastReply = some [4] := by decide

/-- R41: an EXTERNAL show with pre-roll 2000 starts in PREROLL and HOLDOVER at −2000 (01, Worked sequence). -/
theorem test_showStart_of_the_worked_sequence :
    ran (.showStart 1 0) (stored live (entry .ready 1 0) [markCue 5000])
      (fun t => (t.seq.state, t.clock.state, t.clock.position)) = some (.preroll, .holdover, -2000) := by decide

theorem test_showPause_disarms :
    ran (.showPause 1) { running .playing .locked 10 with
        clock := { (running .playing .locked 10).clock with armed := some 3 } }
      (fun t => (t.seq.state, t.seq.pausedFrom, t.clock.armed)) = some (.paused, .playing, none) := by decide

/-- R44, R10: a pre-roll resumes, and a locked external clock is armed again. -/
theorem test_showResume_arms :
    ran (.showResume 1) (at_ (running .paused .locked (-5)) 9) (fun t => (t.seq.state, t.clock.armed)) =
      some (.preroll, some 9) := by decide

/-- R45: the end position lies an end fade above show position. -/
theorem test_showStop_begins_the_ending :
    ran (.showStop 1) { running .playing .locked 10 with
        seq := { (running .playing .locked 10).seq with run := { Sequencer.fresh.run with endFade := 3000 } } }
      (fun t => (t.seq.state, t.seq.endPosition, t.seq.endReason)) = some (.ending, 3010, .stopRequest) := by decide

theorem test_showAbort_ends_at_once :
    ran (.showAbort 1) (running .playing .locked 10)
      (fun t => (t.seq.state, t.seq.endReason, (t.jets.channels.get 47).live.abortClose)) =
        some (.idle, .abortRequest, true) := by decide

/-- R61: the reply carries all the flags. -/
theorem test_flags_reply_the_flags :
    ran (.flagsSet 1 0x8001) { safe with seq := { safe.seq with flags := 2 } } lastReply = some [0, 3, 0x80] ∧
      ran (.flagsClear 1 2) { safe with seq := { safe.seq with flags := 3 } } (·.seq.flags) = some 1 := by decide

theorem test_sequencerRead_has_every_field :
    ran (.sequencerRead 1) safe (fun t => (lastReply t).length) = some 39 := by decide

/-- R67, R68: a full record is taken; a curve that falls is not. -/
theorem test_channelConfig_checks_the_curve :
    ran (.channelConfig 1 (channelArgs [0, 40, 110, 200, 300, 400, 480, 540, 580])) safe
        (fun t => (t.jets.channels.get 0).cfg.kn) = some 200 ∧
      ran (.channelConfig 1 (channelArgs [0, 40, 30, 200, 300, 400, 480, 540, 580])) safe lastReply =
        some [4] := by decide

theorem test_jetGroupConfig_sets_members :
    ran (.jetGroupConfig 1 { group := 15, members := 0x800000000001, lead := 4000 }) safe
      (fun t => (t.jets.groups.get 15).members) = some 0x800000000001 := by decide

/-- R73: a height above 4095 is taken as 4095. -/
theorem test_jetSet_clamps_the_height :
    ran (.jetSet 1 { index := 47, group := 0, height := 5000, fade := 800, level := 0xFF }) safe
      (fun t => ((t.jets.channels.get 47).live.fade.target, lastReply t)) = some (4095, [0, 1, 0]) := by decide

theorem test_channelRead_length :
    ran (.channelRead 1 47) safe (fun t => (lastReply t).length) = some 62 := by decide

theorem test_jetGroupRead_length :
    ran (.jetGroupRead 1 15) safe (fun t => (lastReply t).length) = some 9 := by decide

/-- R89: a drive address that another pump has is refused. -/
theorem test_pumpConfig_keeps_addresses_apart :
    ran (.pumpConfig 1 { pump := 3, manifold := 1, address := 14, ratedFlow := 1500, minSpeed := 300, ramp := 4000,
                         lead := 0, startTimeout := 10 })
        (pump0 safe (fun p => { p with cfg := { p.cfg with address := 14 } })) lastReply =
          some [4] ∧
      ran (.pumpConfig 1 { pump := 0, manifold := 1, address := 14, ratedFlow := 1500, minSpeed := 300, ramp := 4000,
                           lead := 0, startTimeout := 10 })
        (pump0 safe (fun p => { p with cfg := { p.cfg with address := 14 } }))
          (fun t => (t.water.pumps.get 0).cfg.ratedFlow) = some 1500 := by decide

/-- R88: a pump made unconfigured receives no reply to the poll in progress; with an address the exchange stays open
(log 38). -/
theorem test_pumpConfig_ends_the_exchange :
    let s : State := { safe with water := { safe.water with poll := { safe.water.poll with awaiting := some 0 } } }
    let a : PumpArgs := { pump := 0, manifold := 0, address := 0, ratedFlow := 1500, minSpeed := 300, ramp := 4000,
                          lead := 0, startTimeout := 10 }
    ran (.pumpConfig 1 a) s (·.water.poll.awaiting) = some none ∧
      ran (.pumpConfig 1 { a with address := 14 }) s (·.water.poll.awaiting) = some (some 0) := by decide

/-- R91: a speed below the minimum is raised to it (05, A ramp to speed has 700). -/
theorem test_pumpSet_clamps_the_speed :
    ran (.pumpSet 1 { index := 0, group := 0, speed := 100, ramp := 0 })
      (pump0 live (fun p => { p with cfg := { p.cfg with minSpeed := 300 } }))
      (fun t => ((t.water.pumps.get 0).live.target, (t.water.pumps.get 0).live.ramp)) = some (300, 10000) := by decide

/-- R100: a FAULTED pump returns to STOPPED after a GOOD exchange with ready set. -/
theorem test_pumpClear_returns_to_service :
    ran (.pumpClear 1 0)
      (pump0 safe (fun p => { p with live := { p.live with state := .faulted, exchange := .good, ready := true } }))
      (fun t => (t.water.pumps.get 0).live.state) = some .stopped := by decide

theorem test_pumpRead_length :
    ran (.pumpRead 1 7) safe (fun t => (lastReply t).length) = some 29 := by decide

theorem test_manifoldConfig_range :
    ran (.manifoldConfig 1 1 16383) safe (fun t => (t.water.manifolds.get 1).reserve) = some 16383 ∧
      ran (.manifoldConfig 1 1 16384) safe (fun t => (t.water.manifolds.get 1).reserve) = some 0 := by decide

theorem test_manifoldRead_answers :
    ran (.manifoldRead 1 1) safe (fun t => (lastReply t).head?) = some (some 0) := by decide

/-- R121: the worked sequence's configuration is taken; a threshold of 1000 is not. -/
theorem test_windConfig_checks_the_thresholds :
    ran (.windConfig 1 (windArgs gustThresholds (List.replicate 4 gustZone))) safe (·.wind.cfg.k) = some 725 ∧
      ran (.windConfig 1 (windArgs [40, 70, 100, 130, 160, 200, 1000] (List.replicate 4 gustZone))) safe lastReply =
        some [4] := by decide

/-- R118: a band above 7 is taken as 7. -/
theorem test_windBandSet_clamps :
    ran (.windBandSet 1 9) safe (fun t => (t.wind.manualBand, t.wind.band, lastReply t)) = some (7, 7, [0, 7]) := by
  decide

theorem test_windRead_answers :
    ran (.windRead 1) safe (fun t => (lastReply t).take 4) = some [0, 1, 0, 0] := by decide

/-- R122: a gate that is due at 1000 ms and has not ended yet reports 999 (log 39). -/
theorem test_windRead_bounds_the_gate :
    ran (.windRead 1) (at_ safe 1000) (fun t => ((lastReply t).drop 6).take 2) = some [0xE7, 3] := by decide

/-- R124: bases 101 and 104 share slot 104. -/
theorem test_fixtureConfig_refuses_overlap :
    let s : State := { safe with light := { safe.light with
      fixtures := safe.light.fixtures.modify 20 (fun f => { f with cfg := { f.cfg with base := 101 } }) } }
    ran (.fixtureConfig 1 { fixture := 21, base := 104, kind := 0, bound := 0xFF, lead := 0 }) s lastReply =
        some [18, 20] ∧
      ran (.fixtureConfig 1 { fixture := 21, base := 105, kind := 0, bound := 0xFF, lead := 0 }) s
        (fun t => (t.light.fixtures.get 21).cfg.base) = some 105 := by decide

theorem test_fixtureGroupConfig_lead :
    ran (.fixtureGroupConfig 1 { group := 15, members := 1, lead := 501 }) safe lastReply =
      some [4] := by decide

theorem test_lightingConfig_range :
    ran (.lightingConfig 1 ⟨1, 2, 3, 4, 5, 6, 7, 25⟩) safe (·.light.settings.period) = some 25 ∧
      ran (.lightingConfig 1 ⟨1, 2, 3, 4, 5, 6, 7, 24⟩) safe (·.light.settings.period) = some 30 := by decide

/-- R129: components are times 257 (07, Worked example). -/
theorem test_fixtureSet_widens :
    ran (.fixtureSet 1 { index := 20, group := 0, r := 255, g := 128, b := 0, w := 64, fade := 1000, master := 200,
                         mode := 0 }) safe
      (fun t => (t.light.fixtures.get 20).live.fade.target) = some ⟨65535, 32896, 0, 16448⟩ := by decide

theorem test_fixtureRead_length :
    ran (.fixtureRead 1 95) safe (fun t => (lastReply t).length) = some 36 := by decide

theorem test_fixtureGroupRead_length :
    ran (.fixtureGroupRead 1 15) safe (fun t => (lastReply t).length) = some 15 := by decide

theorem test_lightingRead_settings :
    ran (.lightingRead 1) safe (fun t => (lastReply t).take 10) = some [0, 26, 0, 0, 0, 51, 255, 77, 30, 0] := by decide

/-- R141: the last track that fits, and one that does not. -/
theorem test_trackDefine_range :
    ran (.trackDefine 1 { track := 63, start := 0x3FFFF000, frames := 1024, format := 0 }) safe
        (fun t => (t.audio.tracks.get 63).isSome) = some true ∧
      ran (.trackDefine 1 { track := 63, start := 0x3FFFF000, frames := 1025, format := 0 }) safe
        (fun t => (t.audio.tracks.get 63).isSome) = some false := by decide

theorem test_trackRead_undefined :
    ran (.trackRead 1 0) safe lastReply = some [0, 0, 0, 0, 0, 0, 0, 0, 0, 0, 0] := by decide

theorem test_audioConfig_clamps :
    ran (.audioConfig 1 5000 1) safe (fun t => (t.audio.masterGain, t.audio.release)) = some (4096, 1) := by decide

theorem test_streamRead_out_of_range :
    ran (.streamRead 1 4) safe lastReply = some [4] := by decide

/-- R159: the last sector is erased, the first above the image too; the image's own is not. -/
theorem test_flashErase_range :
    ran (.flashErase 1 0x3FFFF000) safe (·.flash.op.isSome) = some true ∧
      ran (.flashErase 1 0x000FF000) safe (·.flash.op.isSome) = some false := by decide

/-- R159, R194: BUSY while a stream sounds, and no reply at all when three replies wait. -/
theorem test_flashErase_while_a_stream_is_not_idle :
    let s := stream0 safe (fun t => { t with state := .loading })
    let waiting : Reply := { kind := 0x81, tag := 0, payload := [], thenReset := false }
    ran (.flashErase 1 0x3FFFF000) s lastReply = some [1] ∧
      ran (.flashErase 1 0x3FFFF000) { s with link := { s.link with replies := List.replicate 3 waiting } }
        (·.link.replies.length) = some 3 := by decide

theorem test_flashWrite_holds :
    ran (.flashWrite 1 0x00100000 (List.replicate 256 7)) safe (fun t => (t.flash.op.map (·.holding), t.link.outstanding)) =
      some (some true, true) := by decide +kernel

theorem test_flashRead_range :
    ran (.flashRead 1 0x3FFFFE00 512) safe (·.flash.op.isSome) = some true ∧
      ran (.flashRead 1 0x3FFFFE01 512) safe (·.flash.op.isSome) = some false := by decide

theorem test_flashInterfaceHold_takes :
    ran .flashInterfaceHold (at_ (flashing safe false (.erase 0x100000)) 7)
      (fun t => t.flash.op.map (fun o => (o.holding, o.started))) = some (some (true, 7)) := by decide

/-- R159: a page program gives the AND of old and new. -/
theorem test_flashOperationDone_programs :
    ran (.flashOperationDone true)
        { flashing safe true (.write 0x100000 [0x3C]) with
          flash := { (flashing safe true (.write 0x100000 [0x3C])).flash with mem := [(0x100000, 0x0F)] } }
        (fun t => (t.flash.byte 0x100000, t.flash.op, lastReply t)) = some (0x0C, none, [0]) := by decide

/-- R159: a write has 10 ms. -/
theorem test_flashTimeout_of_a_write :
    ran .flashTimeout (at_ (flashing safe true (.write 0x100000 [0x3C])) 10) lastReply =
        some [21] ∧
      ran .flashTimeout (at_ (flashing safe true (.write 0x100000 [0x3C])) 9) (·.flash.op.isSome) = some true := by
  decide

/-- R164: a setting on condition 3 from line 7, window 8, threshold 6 (09, Worked sequence). -/
theorem test_inputConfig_of_the_beam :
    ran (.inputConfig 1 [3, 0, 7, 0, 1, 8, 6, 0]) safe
      (fun t => ((t.trip.conditions.get 3).cfg.source, (t.trip.conditions.get 3).history.length)) =
        some (.line 7, 8) := by decide

/-- R164, check 4: of two settings with the role CLOCK_STEP the later one's condition is carried. -/
theorem test_inputConfig_refuses_a_shared_role :
    ran (.inputConfig 1 [23, 1, 0, 0, 0, 0, 0, 1, 22, 1, 0, 0, 0, 0, 0, 1]) safe lastReply = some [19, 22] := by decide

/-- R170, R165: T4 of the worked sequence (09); ANY does not go with HOST_WHEN_INACTIVE. -/
theorem test_reactionConfig_of_the_zone_hold :
    ran (.reactionConfig 1 { reaction := 4, use := 0, source := 0, sourceArg := 3, trigger := 2, release := 1, kind := 5,
                             arg1 := 2, arg2 := 0 }) safe
        (fun t => (t.trip.reactions.get 4).cfg.kind) = some (.zoneHold 2) ∧
      ran (.reactionConfig 1 { reaction := 4, use := 0, source := 0, sourceArg := 3, trigger := 4, release := 1,
                               kind := 5, arg1 := 2, arg2 := 0 }) safe lastReply = some [4] := by
  decide

/-- R168: a latch whose source is HIGH is not released (09, A premature clear). -/
theorem test_tripClear_refuses_while_the_source_is_active :
    let r := { reaction (.condition 0) .rise (.zoneHold 2) with latch := true }
    ran (.tripClear 1 0) (condition0 (reaction0 safe r) (fun c => { c with filtered := true })) lastReply =
        some [17] ∧
      ran (.tripClear 1 0) (reaction0 safe r) (fun t => ((t.trip.reactions.get 0).latch, lastReply t)) =
        some (false, [0, 0, 0]) := by decide

theorem test_inputRead_length :
    ran (.inputRead 1) safe (fun t => (lastReply t).length) = some (1 + 32 + 24 * 7 + 24 * 2 + 32 * 8 + 32 * 2 + 11 + 4) := by
  decide +kernel

/-- R177, R178: an active PLANT_SAFE reaction refuses LIVE. -/
theorem test_setPlant_is_refused_while_tripped :
    ran (.setPlant 1 1) safe (·.out.mode) = some .live ∧
      ran (.setPlant 1 1) (reaction0 safe { reaction (.condition 0) .rise .plantSafe with latch := true }) lastReply =
        some [16] := by decide

theorem test_outputConfig_sets_a_line :
    ran (.outputConfig 1 { line := 63, source := 3, sourceArg := 0, invert := 0, safe := 1 }) safe
      (fun t => t.shown 63 (t.out.lines.get 63)) = some .high := by decide

theorem test_outputs_reply_the_host_levels :
    ran (.outputsSet 1 0x8000000000000001) safe lastReply = some [0, 1, 0, 0, 0, 0, 0, 0, 0x80] ∧
      ran (.outputsClear 1 1) { safe with out := { safe.out with host := 3 } } (·.out.host) = some 2 := by decide

theorem test_outputRead_length :
    ran (.outputRead 1) safe (fun t => (lastReply t).length) = some (1 + 1 + 8 + 64 * 7) := by decide +kernel

/-- R188: a kind of 0x80 or above is discarded; an unknown kind is answered. -/
theorem test_frameComplete_judges_kinds :
    ran (.frameComplete 0x80 1 []) safe (·.link.replies.length) = some 0 ∧
      ran (.frameComplete 0x7F 1 []) safe lastReply = some [2] := by decide

theorem test_frameTimeout_drops_the_frame :
    ran .frameTimeout { safe with link := { safe.link with rx := .assembling [1] } } (·.link.rx) = some .hunting := by
  decide

/-- R195: START, the lowest kind, goes when nothing else waits, and its count returns to 0. -/
theorem test_transmitEnd_sends_the_notice :
    ran .transmitEnd safe (fun t => ((t.link.notices.get 7).pending, (t.link.notices.get 7).count, t.link.line.isSome)) =
      some (false, 0, true) := by decide

/-- R5: pre-roll counts in HOLDOVER; a locked EXTERNAL clock does not count plant milliseconds. -/
theorem test_plantMillisecond_counts_position :
    ran .plantMillisecond (running .preroll .holdover (-2000)) (·.clock.position) = some (-1999) ∧
      ran .plantMillisecond (running .playing .locked 180) (·.clock.position) = some 180 := by decide

/-- R2, R48: a catch-up to the ceiling ends the run; the SHOW_PAUSE reaction on the holdover finds ENDING. -/
theorem test_stepTimeout_at_the_ceiling_pauses_nothing :
    let s := reaction0 (running .playing .locked 1999999998) (reaction .clockHoldover .rise .showPause)
    ran .stepTimeout (at_ { s with clock := { s.clock with armed := some 0 },
                                   seq := { s.seq with run := { s.seq.run with endFade := 9 } } } 5)
      (fun t => (t.seq.state, t.seq.endPosition, t.seq.endReason, t.clock.state)) =
        some (.ending, 2000000012, .ceiling, .holdover) := by decide

/-- R8: the loss of the step stream at 7821 (01, Worked sequence). -/
theorem test_stepTimeout_of_the_worked_sequence :
    ran .stepTimeout (at_ { running .ending .locked 7821 with
        seq := { (running .ending .locked 7821).seq with endPosition := 9000 },
        clock := { (running .ending .locked 7821).clock with armed := some 110000 } } 110005)
      (fun t => (t.clock.position, t.clock.state, t.clock.holdoverCount)) = some (7826, .holdover, 1) := by decide

theorem test_manifoldUpdate_waits_for_its_time :
    ran (.manifoldUpdate .a) (at_ safe 10) (fun t => (t.water.manifolds.get 0).nextUpdate) = some 20 ∧
      ran (.manifoldUpdate .a) (at_ safe 9) (fun t => (t.water.manifolds.get 0).nextUpdate) = some 10 := by decide

/-- R94, R95: the first poll of a pump at address 14 with target 700 and ramp 4000 (05, A ramp to speed). -/
theorem test_pollSlot_of_the_ramp :
    ran .pollSlot (pump0 live (fun p => { p with cfg := { p.cfg with address := 14 },
                                                 live := { p.live with target := 700, ramp := 4000 } }))
      (·.water.poll.request) = some [0x3C, 14, 1, 5, 0, 0xB0] := by decide

/-- A state whose pump 0, at address 14, awaits its reply. -/
def awaiting (f : PumpLive → PumpLive) : State :=
  { pump0 live (fun p => { p with cfg := { p.cfg with address := 14, minSpeed := 300 }, live := f p.live }) with
    water := { (pump0 live (fun p => { p with cfg := { p.cfg with address := 14, minSpeed := 300 },
                                              live := f p.live })).water with
      poll := { next := 1, awaiting := some 0, request := [0x3C, 14, 1, 5, 0, 0xB0] } } }

/-- R97: the reply with actual speed 300 makes a STARTING pump RUNNING, and 280 does not (05, A ramp to speed). -/
theorem test_driveReply_of_the_ramp :
    ran (.driveReply [0x3E, 14, 3, 0x2C, 1, 0, 0x84]) (awaiting (fun l => { l with state := .starting, target := 700 }))
        (fun t => (t.water.pumps.get 0).live.state) = some .running ∧
      ran (.driveReply [0x3E, 14, 3, 0x18, 1, 0, 0x98]) (awaiting (fun l => { l with state := .starting, target := 700 }))
        (fun t => (t.water.pumps.get 0).live.state) = some .starting := by decide

/-- R96: the third miss fails the pump (05, The fault). -/
theorem test_pollMiss_counts_to_three :
    ran .pollMiss (awaiting (fun l => { l with state := .running, misses := 2 }))
        (fun t => ((t.water.pumps.get 0).live.state, (t.water.pumps.get 0).live.fault)) =
          some (.faulted, some .linkLost) ∧
      ran .pollMiss (awaiting (fun l => { l with state := .running, misses := 1 }))
        (fun t => (t.water.pumps.get 0).live.state) = some .running := by decide

theorem test_startTimeout_after_ten_seconds :
    ran (.startTimeout 0) (at_ (pump0 live (fun p => { p with live := { p.live with state := .starting } })) 10000)
        (fun t => (t.water.pumps.get 0).live.fault) = some (some .startTimeout) ∧
      ran (.startTimeout 0) (at_ (pump0 live (fun p => { p with live := { p.live with state := .starting } })) 9999)
        (fun t => (t.water.pumps.get 0).live.fault) = some none := by decide

/-- R114: 12 pulses at K 725 make speed 87, and the average with two gates of 44 is 58 (06, The gust). -/
theorem test_gateEnd_of_the_gust :
    ran .gateEnd (at_ { safe with wind := { safe.wind with
        cfg := { safe.wind.cfg with k := 725 }, gateCount := 12, history := ⟨44, 44, 44⟩ } } 1000)
      (fun t => (t.wind.history, t.wind.lastAverage, t.wind.gateCount)) = some (⟨87, 44, 44⟩, 58, 0) := by decide

theorem test_trimStep_waits_for_its_time :
    ran .trimStep (at_ safe 100) (·.wind.nextTrim) = some 200 ∧ ran .trimStep (at_ safe 99) (·.wind.nextTrim) = some 100 := by
  decide

/-- R137, R138: a frame in SAFE carries a start code and 24 slots. -/
theorem test_lightingFrame_in_safe :
    ran .lightingFrame safe (fun t => (t.light.line.length, t.light.frameCount, t.light.nextFrame)) = some (25, 1, 30) := by
  decide +kernel

/-- R148, R152: a lone full-gain stream is heard as it stands. Its left word -32767 starts one bit clock after the word
clock fell, most significant bit first; before it stands the last bit of the right sample before, which is 1. -/
theorem test_outputFrame_gives_the_frame :
    let s := stream0 { live with audio := { live.audio with outRight := 3 } } (fun t => { t with
        state := .playing, ring := [[⟨-32768, 100⟩]], gain := { t.gain with start := 4096, target := 4096 },
        leftToPlay := 9 })
    ran .outputFrame s
        (fun t => (t.audio.outLeft, t.audio.outRight, t.audio.clip, (t.audio.streams.get 0).leftToPlay)) =
        some (-32767, 100, true, 8) ∧
      ran .outputFrame s (fun t => (t.audio.serial.take 3, t.audio.serial[16]?)) =
        some ([⟨false, true⟩, ⟨false, true⟩, ⟨false, false⟩], some ⟨true, true⟩) := by decide

theorem test_stopFadeEnd_idles :
    ran (.stopFadeEnd 0) (at_ (stream0 live (fun t => { t with state := .stopping, gain := { t.gain with duration := 500 } }))
        500) (fun t => (t.audio.streams.get 0).state) = some .idle ∧
      ran (.stopFadeEnd 0) (at_ (stream0 live (fun t => { t with state := .stopping, gain := { t.gain with duration := 500 } }))
        499) (fun t => (t.audio.streams.get 0).state) = some .stopping := by decide

/-- R153: a peak of 12 800 is 100; release 8 takes an envelope of 90 to 82 at a silent block. -/
theorem test_envelope_rises_and_releases :
    ran .envelopeEvent { live with audio := { live.audio with blockCount := 512, blockPeak := 12800 } } (·.audio.envelope) =
        some 100 ∧
      ran .envelopeEvent { live with audio := { live.audio with blockCount := 512, envelope := 90 } } (·.audio.envelope) =
        some 82 := by decide

/-- R144, R141: a mono track of one frame fills the slot's first frame, on both sides. -/
theorem test_refillReadComplete_fills_a_slot :
    ran .refillReadComplete { live with
        audio := { live.audio with
          read := some { stream := 0, address := 0x100000, frames := 1, format := .mono16, discarded := false } },
        flash := { live.flash with mem := [(0x100000, 0x34), (0x100001, 0x80)] } }
      (fun t => ((t.audio.streams.get 0).ring.map (·.take 2), t.audio.read)) =
        some ([[⟨-32716, -32716⟩, ⟨0, 0⟩]], none) := by decide +kernel

/-- R144, log 37: the same beyond the flash stops the model. -/
theorem test_refillReadComplete_beyond_the_flash :
    ran .refillReadComplete { live with audio := { live.audio with
        read := some { stream := 0, address := 0x40000000, frames := 1, format := .mono16, discarded := false } } }
      (fun t => t.audio.read) = none := by decide

theorem test_inputSample_makes_a_condition_due :
    ran (.inputSample 5) safe (fun t => (t.trip.samples, (t.trip.conditions.get 0).due)) = some (5, true) := by decide

/-- R163, R6: a rising CLOCK_STEP condition relocks at 180 without a jump (01, Worked sequence). -/
theorem test_conditionSample_serves_the_clock :
    ran (.conditionSample 0)
        (condition0 (running .ending .holdover 180)
          (fun c => { c with cfg := { c.cfg with source := .constHigh, role := .clockStep }, due := true }))
        (fun t => (t.clock.state, t.clock.position, t.clock.armed)) = some (.locked, 180, some 0) := by decide

theorem test_pwmPeriod_takes_the_openings :
    ran .pwmPeriod (channel0 live (fun c => { c with live := { c.live with opening := 934 } }))
      (fun t => t.shown 0 { OutputCfg.factory with source := .channelOpening 0 }) = some (.pwm 934) := by decide

theorem test_controlLinkByte_starts_a_frame :
    ran (.controlLinkByte 0xA5) safe (·.link.rx) = some (.assembling []) ∧
      ran (.controlLinkByte 0x5A) safe (·.link.rx) = some .hunting := by decide

/-! ### Values that meet the statements' hypotheses

One theorem for each statement that has hypotheses; where a statement has several clauses, one conjunct for each, at a
boundary of its range where it has one. -/

/-- A link port in the state after reset, changed. -/
def linked (f : LinkPort → LinkPort) : State := { safe with link := f safe.link }

/-- A reply of no bytes. -/
def blankReply : Reply := { kind := 0x81, tag := 0, payload := [], thenReset := false }

theorem test_meets_StepTakesTheFrontCommand :
    (safe.withPending [.gateEnd, .trimStep]).pending = [.gateEnd, .trimStep] ∧ safe.pending = [] := by decide

theorem test_meets_DecodeOfEncodedRequest :
    (Instr.channelConfig 1 (channelArgs (List.replicate 9 7))).wf = true ∧
      encodeRequest (.channelConfig 1 (channelArgs (List.replicate 9 7))) =
        some (0x20, 1, [0, 0, 1, 0, 2, 200, 0, 7, 0, 7, 0, 7, 0, 7, 0, 7, 0, 7, 0, 7, 0, 7, 0, 7, 0, 0, 0, 0xA0, 0x0F,
          20, 0, 0xE8, 3]) := by decide

theorem test_meets_FrameRunsItsRequest :
    (Instr.clockConfig 1 20).wf = true ∧ encodeRequest (.clockConfig 1 20) = some (0x08, 1, [20, 0]) := by decide

theorem test_meets_FrameBytesDeliverTheFrame :
    safe.phase = .running ∧ safe.link.rx = .hunting ∧ (List.replicate 1024 (0 : Byte)).length ≤ 1024 := by
  decide +kernel

theorem test_meets_ReceiveSideTakesBytes :
    safe.phase = .running ∧ safe.link.rx = .hunting ∧
      ((linked (fun l => { l with rx := .assembling [] })).phase = .running ∧ ([] : List Byte).length + 1 < 2) ∧
      (2 ≤ [(1 : Byte)].length + 1 ∧ 1024 < frameLength ([1] ++ [4])) ∧
      (2 ≤ [(0 : Byte)].length + 1 ∧ frameLength ([0] ++ [4]) ≤ 1024 ∧
        [(0 : Byte)].length + 1 < frameLength ([0] ++ [4]) + 6) ∧
      (frameLength ([0, 0, 0, 0, 0] ++ [0]) ≤ 1024 ∧
        [(0 : Byte), 0, 0, 0, 0].length + 1 = frameLength ([0, 0, 0, 0, 0] ++ [0]) + 6 ∧
        (crc16 (([(0 : Byte), 0, 0, 0, 0] ++ [0]).take 4)).toNat ≠ half ([0, 0, 0, 0, 0] ++ [0]) 4) := by decide +kernel

theorem test_meets_FramesAreJudgedInOrder :
    safe.phase = .running ∧ (0x80 : Byte).toNat ≥ 0x80 ∧
      (linked (fun l => { l with resetTaken := true })).link.resetTaken = true ∧
      ((linked (fun l => { l with outstanding := true })).link.outstanding = true ∧
        (linked (fun l => { l with outstanding := true })).link.resetTaken = false) ∧
      4 ≤ (linked (fun l => { l with replies := List.replicate 4 blankReply })).link.choose.replies.length ∧
      (safe.Ready ∧ (0x7F : Byte).toNat < 0x80 ∧ decodeRequest 0x7F 1 [] = .unknownKind) ∧
      decodeRequest 0x08 1 [20] = .badLength := by decide

theorem test_meets_TransmitEndSendsTheNextFrame :
    safe.phase = .running ∧ safe.link.line = some { bytes := [], thenReset := false } ∧
      (linked (fun l => { l with replies := [blankReply] })).link.replies = [blankReply] ∧
      (safe.link.replies = [] ∧ (safe.link.notices.get 7).pending = true ∧ safe.link.mask.getLsbD 7 = true ∧
        ∀ j : Fin 8, j.val < 7 → (safe.link.notices.get j).pending = true → safe.link.mask.getLsbD j.val = false) ∧
      ∀ j : Fin 8, ((linked (fun l => { l with mask := 0x7F })).link.notices.get j).pending = true →
        (linked (fun l => { l with mask := 0x7F })).link.mask.getLsbD j.val = false := by decide

theorem test_meets_NoticesMergeUnderTheMask : safe.Ready := by decide

theorem test_meets_ResetsBegin :
    safe.Ready ∧
      (linked (fun l => { l with line := some { bytes := [], thenReset := true } })).link.line =
        some { bytes := [], thenReset := true } ∧
      (safe.phase ≠ .heldLow ∧ ({ safe with phase := .resetting } : State).phase = .resetting) ∧
      (let s : State := { flashing safe false (.save Image.factory (.erasing 0)) with phase := .heldLow }
       s.phase = .heldLow ∧ (∃ o, s.flash.op = some o ∧ o.job = .save Image.factory (.erasing 0)) ∧
         ran .resetPin s (fun t => (t.phase, t.flash.op.isSome)) = some (.resetting, false)) ∧
      (let s : State := { flashing safe true (.erase 0x100000) with phase := .heldLow }
       s.phase = .heldLow ∧ s.FlashCanonical ∧ ∃ o, s.flash.op = some o ∧ (o.job = .erase 0x100000 ∧ o.holding = true) ∧
         ∀ i phase, o.job ≠ .save i phase) ∧
      safe.flash.op = none := by
  refine ⟨by decide, by decide, by decide, ⟨rfl, ⟨_, rfl, rfl⟩, by decide⟩, ⟨rfl, rfl, _, rfl, ⟨rfl, rfl⟩, ?_⟩, rfl⟩
  intro i phase h
  cases h

/-- A stored image with a LOADING show of two cues above a READY one, a HIGH condition 0 with the WIND_PULSE role, a RISE
reaction on it and a FALL reaction on condition 1. -/
def stored0 : Image :=
  { Image.factory with
    dir := (Image.factory.dir.set 0 (entry .ready 1 0)).set 1 { entry .loading 2 0 with first := 1 },
    cues := [markCue 1, markCue 2, markCue 3],
    conditions := Image.factory.conditions.set 0
      { ConditionCfg.factory with source := .constHigh, window := 63, threshold := 63, role := .windPulse },
    reactions := (Image.factory.reactions.set 0 (reaction (.condition 0) .rise .plantSafe).cfg).set 31
      (reaction (.condition 1) .fall .noticeOnly).cfg }

theorem test_meets_StartUpRestoresTheConfiguration :
    ({ live with phase := .resetting } : State).phase = .resetting ∧
      (∀ c ∈ Image.factory.conditions.cells, c.role ≠ .windPulse) ∧
      (∃ c ∈ stored0.conditions.cells, c.role = .windPulse) ∧ (stored0.dir.get 1).state = .loading ∧
      ran (.resetSequence .b921600 0)
        { live with phase := .resetting, flash := { live.flash with image := some stored0 } }
        (fun t => ((t.store.dir.get 1).state, t.store.cues.length, (t.trip.conditions.get 0).history.length,
          (t.trip.conditions.get 0).filtered, (t.trip.reactions.get 0).latch, (t.trip.reactions.get 31).latch)) =
          some (.empty, 1, 63, true, true, true) := by decide +kernel

/-- A plant whose flash lists bytes, about to take a program of one of them. -/
def programming : State :=
  { flashing safe true (.write 0x100000 [0]) with
    flash := { (flashing safe true (.write 0x100000 [0])).flash with mem := [(0x100000, 1), (0x100001, 2)] },
    pending := [.flashOperationDone true] }

theorem test_meets_EveryStepKeepsTheFlashCanonical :
    programming.FlashCanonical ∧ goesOn (step programming) = true := by decide

theorem test_meets_EveryStepKeepsIdleAtRest :
    (live.withPending [.inputSample 1]).IdleAtRest ∧ goesOn (step (live.withPending [.inputSample 1])) = true := by decide

/-- A plant whose pump 0 is FAULTED after an exchange. -/
def broken (x : Exchange) (ready : Bool) : State :=
  pump0 safe (fun p => { p with live := { p.live with state := .faulted, exchange := x, ready := ready } })

theorem test_meets_EveryStepKeepsThePlantSafe :
    ((broken .good true).withPending [.pollSlot]).StoppedPumpsHold ∧
      goesOn (step ((broken .good true).withPending [.pollSlot])) = true ∧
      (safe.withPending [.setPlant 1 1]).SafeHolds ∧ goesOn (step (safe.withPending [.setPlant 1 1])) = true ∧
      (({ live with phase := .heldLow } : State).withPending [.resetPin]).SafeHolds ∧
      goesOn (step (({ live with phase := .heldLow } : State).withPending [.resetPin])) = true := by decide

/-- A plant in an operation on the flash with three replies waiting, about to take a request. -/
def crowded : State :=
  { flashing safe true (.erase 0x100000) with
    link := { (flashing safe true (.erase 0x100000)).link with replies := List.replicate 3 blankReply },
    pending := [.clockRead 1] }

theorem test_meets_EveryStepKeepsRoomForReplies : crowded.RepliesFit ∧ goesOn (step crowded) = true := by decide

/-- A LIVE plant with an opening, a pump and a band at the tops of their ranges. -/
def atTheTops : State :=
  channel0 (pump0 { live with wind := { live.wind with band := 7 } }
    (fun p => { p with live := { p.live with target := 1000, commanded := 1000, actual := 1000 } }))
    (fun c => { c with live := { c.live with opening := 1000 } })

theorem test_meets_EveryStepKeepsTheRanges :
    (atTheTops.withPending [.gateEnd]).InRange ∧ goesOn (step (atTheTops.withPending [.gateEnd])) = true := by
  refine ⟨⟨?_, ?_, ?_, by decide, by decide, by decide, by decide⟩, by decide⟩
  · refine ⟨?_, ?_, ?_, ?_, ?_, ?_, ?_, ?_, ?_, ?_, ?_, ?_, ?_, ?_, ?_, ?_, ?_, ?_, ?_, ?_⟩ <;> decide
  · intro i h
    exact absurd h (by simp [atTheTops, channel0, pump0, live, safe, State.withPending, State.reset])
  · intro o i phase h
    exact absurd h (by simp [atTheTops, channel0, pump0, live, safe, State.withPending, State.reset])

theorem test_meets_ReadRequestsChangeNothing : safe.Ready ∧ (running .paused .locked 5).Ready := by decide

theorem test_meets_ChannelReadLayout : (safe.jets.channels.get 47).cfg.curve.length = 9 := by decide

theorem test_meets_PlantMillisecondCountsTime :
    (running .playing .holdover 10).phase = .running ∧ (running .playing .holdover 10).CountsLocally ∧
      ¬ (running .paused .holdover 10).CountsLocally ∧ ¬ (running .playing .locked 10).CountsLocally ∧
      ran .plantMillisecond (running .preroll .holdover (-2)) (·.seq.state) = some .preroll ∧
      (let s : State := { running .preroll .holdover (-1) with
         seq := { (running .preroll .holdover (-1)).seq with run := { Sequencer.fresh.run with count := 1 } } }
       s.CountsLocally ∧ ran .plantMillisecond s (·.seq.state) = some .playing) ∧
      ran .plantMillisecond (running .playing .holdover 1999999998) (fun t => (t.seq.state, t.seq.endReason)) =
        some (.idle, .natural) ∧
      ran .plantMillisecond (running .playing .holdover 1999999999) (fun t => (t.seq.state, t.seq.endReason)) =
        some (.idle, .ceiling) ∧
      ((running .playing .holdover 9).atNaturalEnd = true ∧ (stream0 (running .playing .holdover 9)
        (fun x => { x with state := .playing })).atNaturalEnd = false) ∧
      ran .plantMillisecond (stream0 (running .playing .holdover 9) (fun x => { x with state := .playing }))
        (·.seq.state) = some .playing ∧
      (let s : State := { running .ending .holdover 9 with
         seq := { (running .ending .holdover 9).seq with endPosition := 11, endReason := .stopRequest } }
       s.CountsLocally ∧ ran .plantMillisecond s (·.seq.state) = some .ending ∧
         ran .plantMillisecond { s with clock := { s.clock with position := 10 } }
           (fun t => (t.seq.state, t.seq.endReason)) = some (.idle, .stopRequest)) := by decide

theorem test_meets_StepTimeoutHoldsOver :
    let s : State := at_ { running .playing .locked 10 with
      clock := { (running .playing .locked 10).clock with armed := some 0 } } 5
    s.phase = .running ∧ (s.clock.state = .locked ∧ s.clock.armed = some 0 ∧
        s.clock.stepTimeout ≤ elapsed 0 s.clock.plantTime) ∧
      (s.seq.state = .playing ∧ 2000000000 ≤ (1999999995 : Int) + s.clock.stepTimeout ∧
        ran .stepTimeout { s with clock := { s.clock with position := 1999999995 } }
          (fun t => (t.seq.state, t.seq.endReason)) = some (.idle, .ceiling)) ∧
      ∀ a, (at_ s 4).clock.state = .locked → (at_ s 4).clock.armed = some a →
        elapsed a (at_ s 4).clock.plantTime < (at_ s 4).clock.stepTimeout := by
  refine ⟨by decide, by decide, by decide, ?_⟩
  intro a _ h
  cases h
  decide

theorem test_meets_StepAndMarkEvents :
    (safe.seq.state ≠ .playing ∧ safe.seq.state ≠ .ending) ∧ safe.clock.source ≠ .external ∧
      (running .playing .locked (-1)).clock.position < 0 ∧
      ((running .playing .locked 0).seq.state = .playing ∧ (running .playing .locked 0).clock.source = .external ∧
        0 ≤ (running .playing .locked 0).clock.position ∧ (running .playing .locked 0).clock.state = .locked) ∧
      ((running .ending .holdover 0).clock.state = .holdover ∧ (running .ending .holdover 0).NoReactions) ∧
      (let s := stream0 (running .playing .locked 4500) (fun x => { x with state := .playing })
       s.markEvent.clock.position = 5000 ∧ (s.markEvent.link.notices.get 3).detail =
         some (.clock .snap 500 5000 s.clock.plantTime) ∧ (running .playing .locked 4000).markEvent.clock.lastSnap = 0) := by
  decide

/-- What a new show position meets: a LOADING stream at its start, an ending at its end, a due entry at the ceiling, and
the position below it (R46, R48, R147). -/
theorem test_meets_StepAndMarkEvents_positions :
    (let s := stream0 (running .playing .locked 9) (fun x => { x with state := .loading, startPosition := 10 })
     (s.judgeStarts.audio.streams.get 0).state = .loading ∧ (s.stepEvent.audio.streams.get 0).state = .playing ∧
       s.stepEvent.seq.state = .playing) ∧
      (let s := running .ending .locked 9
       s.NoReactions ∧ s.seq.endPosition ≤ s.clock.position ∧ s.judgeEnd.seq.state = .idle) ∧
      (let s : State := { running .playing .locked 2000000000 with
         seq := { (running .playing .locked 0).seq with queue := [queued (markCue 0) 1999999999] } }
       s.headDue = true ∧ s.atCeiling = true ∧ (issueDue s.seq.queue.length s).seq.lastMark = some 7) ∧
      (running .playing .locked 2000000000).headDue = false ∧
      ((running .playing .locked 5).enterEnding .ceiling).seq.state = .ending := by decide

/-- Fields of a SHOW_OPEN at the tops of their ranges (R18, R29). -/
def openArgs : ShowOpenArgs :=
  { number := 15, track := 63, preRoll := 4000, endFade := 10000, effects := 3, source := 1 }

theorem test_meets_ShowOpenRequest :
    ((running .paused .locked 0).Ready ∧ (running .paused .locked 0).seq.state ≠ .idle) ∧
      (safe.Ready ∧ safe.seq.state = .idle ∧ openArgs.number.toNat = (15 : Fin 16).val ∧ openArgs.track.toNat < 64 ∧
        openArgs.preRoll.toNat ≤ 4000 ∧ openArgs.endFade.toNat ≤ 10000 ∧ openArgs.effects.toNat ≤ 3 ∧
        openArgs.source.toNat ≤ 1) ∧
      ¬ (({ openArgs with preRoll := 4001 } : ShowOpenArgs).preRoll.toNat ≤ 4000) := by decide

/-- A MARK 9 record at time 258 (R191). -/
def markRecord : List Byte := [2, 1, 0, 5, 0, 0, 0, 0, 9, 0, 0, 0, 0, 0, 0, 0]

/-- A record with the kind code 7, which no kind has (R20). -/
def badRecord : List Byte := [2, 1, 0, 7, 0, 0, 0, 0, 9, 0, 0, 0, 0, 0, 0, 0]

/-- A store whose show 0 is LOADING. -/
def loading : State := stored safe (entry .loading 0 0) []

theorem test_meets_ShowAppendRequest :
    ((running .paused .locked 0).Ready ∧ (running .paused .locked 0).seq.state ≠ .idle) ∧
      (loading.Ready ∧ loading.seq.state = .idle ∧ (List.replicate 16 (0 : Byte)).length % 16 ≠ 1 ∧
        513 < (List.replicate 529 (0 : Byte)).length) ∧
      (1 ≤ (List.replicate 32 markRecord).length ∧ (List.replicate 32 markRecord).length ≤ 32 ∧
        ∀ r ∈ List.replicate 32 markRecord, r.length = 16) ∧
      16 ≤ (16 : Byte).toNat ∧ (loading.store.dir.get 1).state ≠ .loading ∧ (loading.store.dir.get 0).state = .loading ∧
      (cueOf badRecord = none ∧ [markRecord, badRecord][1]? = some badRecord ∧ cueOf markRecord ≠ none) ∧
      (markRecord.length = 16 ∧ badRecord.length = 16) ∧
      [markRecord].map cueOf =
        [({ time := 258, cond := .always, arg := 0, target := 0, group := false, body := .mark 9 } : Cue)].map some := by
  decide +kernel

theorem test_meets_ShowSealRequest :
    ((running .paused .locked 0).Ready ∧ (running .paused .locked 0).seq.state ≠ .idle) ∧
      (loading.Ready ∧ loading.seq.state = .idle ∧ (loading.store.dir.get 15).state ≠ .loading ∧
        (loading.store.dir.get 0).state = .loading) ∧
      sealFault (loading.store.cuesOf (loading.store.dir.get 0)) 1 = none ∧
      sealFault [markCue 3600001] 1 = some (.badOrder, 0) := by decide

theorem test_meets_SealedShowsAreOrdered :
    sealFault [markCue 46500, markCue 48000, loopCue 56000 1 1, loopCue 3600000 0 255] 1 = none ∧
      (let bad := fun (c : CondKind) (arg target : Nat) (group : Bool) (body : CueBody) (effects : Nat) =>
         Cue.badTarget { time := 0, cond := c, arg := arg, target := target, group := group, body := body } effects
       bad .always 99 47 false (.jet 0 0 .keep) 0 = false ∧ bad .always 0 48 false (.jet 0 0 .keep) 0 = true ∧
         bad .always 0 15 true (.jet 0 0 .keep) 0 = false ∧ bad .always 0 2 true (.pump 0 0) 0 = true ∧
         bad .take 16 0 false (.mark 0) 0 = true ∧ bad .windBelow 7 0 false (.mark 0) 0 = false ∧
         bad .always 0 0 false (.audioStart 63 0) 3 = true ∧ bad .always 0 1 false (.audioStart 63 0) 1 = false ∧
         bad .always 0 2 false (.audioStop 0) 1 = true ∧ bad .zoneClear 4 255 true (.loop 0 0) 0 = false) := by decide

/-- Each pass refuses with its status at its first faulty cue, and an earlier pass goes first (R31 to R35). -/
theorem test_meets_SealedShowsAreOrdered_refusals :
    (let bad : Cue := { markCue 6 with cond := .take, arg := 16 }
     sealFault [markCue 5, bad, markCue 4, markCue 3] 0 = some (.badOrder, 2) ∧
       sealFault [markCue 3600001] 0 = some (.badOrder, 0) ∧
       sealFault [markCue 5, bad, bad, loopCue 9 3 1] 0 = some (.badTarget, 1) ∧
       sealFault [markCue 5, markCue 6, loopCue 105 1 1, loopCue 105 3 1] 0 = some (.badLoop, 2)) ∧
      sealFault [markCue 0, markCue 100, loopCue 200 0 1, loopCue 300 1 1] 0 = some (.badLoop, 3) ∧
      sealFault [markCue 0, loopCue 100 0 1, loopCue 200 0 1, loopCue 300 0 1, loopCue 400 0 1, loopCue 500 0 1] 0 =
        some (.loopNesting, 1) := by decide

/-- A store with show 0 on cues 0 and 1 and show 1 on cue 2. -/
def twoShows : State :=
  { safe with store :=
      { dir := (safe.store.dir.set 0 (entry .ready 2 0)).set 1 { entry .ready 1 0 with first := 2 },
        cues := [markCue 1, markCue 2, markCue 3] } }

theorem test_meets_ShowEraseRequest :
    ((running .paused .locked 0).Ready ∧ (running .paused .locked 0).seq.state ≠ .idle) ∧
      twoShows.Ready ∧ twoShows.seq.state = .idle ∧ (twoShows.store.dir.get 15).state = .empty ∧
      (twoShows.store.dir.get 0).state ≠ .empty ∧ (twoShows.store.dir.get 1).state ≠ .empty ∧
      (twoShows.store.dir.get 0).stop ≤ (twoShows.store.dir.get 1).first ∧
      (twoShows.store.dir.get 0).stop ≤ twoShows.store.cues.length ∧
      ran (.showErase 1 0) twoShows (fun t => (t.store.cues, (t.store.dir.get 1).first)) = some ([markCue 3], 0) := by
  decide

/-- A LIVE plant with a READY show 0 whose music is track 63. -/
def musical : State := stored live { entry .ready 1 0 with track := some 63 } [markCue 5000]

/-- The same with the track defined: 600 mono frames. -/
def musicalAt : State :=
  { musical with audio := { musical.audio with
      tracks := musical.audio.tracks.set 63 (some { start := 0x100000, frames := 600, format := .mono16 }) } }

theorem test_meets_ShowStartBeginsARun :
    ((running .paused .locked 0).Ready ∧ (running .paused .locked 0).seq.state ≠ .idle) ∧
      (safe.Ready ∧ safe.seq.state = .idle ∧ safe.out.mode = .safe) ∧
      (loading.store.dir.get 0).state ≠ .ready ∧
      (musical.Ready ∧ musical.out.mode = .live ∧ (musical.store.dir.get 0).state = .ready ∧
        (musical.store.dir.get 0).track = some (63 : Fin 64).val ∧ musical.audio.tracks.get 63 = none) ∧
      (let s := stored live (entry .ready 1 0) [markCue 5000]
       s.Ready ∧ s.seq.state = .idle ∧ s.out.mode = .live ∧ (s.store.dir.get 0).state = .ready ∧
         (s.store.dir.get 0).track = none ∧ s.NoReactions ∧ 0 < (s.store.dir.get 0).preRoll) ∧
      (musicalAt.Ready ∧ musicalAt.AtRest ∧ (musicalAt.audio.tracks.get 63).isSome = true ∧ musicalAt.audio.read = none ∧
        musicalAt.flash.op = none ∧
        ran (.showStart 1 0) musicalAt (fun t => ((t.audio.streams.get 0).state, (t.audio.streams.get 0).share,
          (t.audio.streams.get 0).leftToRead, t.audio.read.map (·.frames))) = some (.loading, 8, 88, some 512) ∧
        ran (.showStart 1 0) musicalAt (fun t => ((t.link.notices.get 2).detail, (t.audio.streams.get 1).state)) =
          some (some (.run .state (some 0) .idle .preroll .none (-2000) 0), .idle)) := by
  refine ⟨?_, ?_, ?_, ?_, ?_, ?_, ?_, ?_, ?_, ?_, ?_, ?_⟩ <;> decide

theorem test_meets_PauseAndResume :
    (safe.Ready ∧ safe.seq.state ≠ .preroll ∧ safe.seq.state ≠ .playing ∧ safe.seq.state ≠ .paused) ∧
      ((running .preroll .holdover (-1)).Ready ∧ (running .preroll .holdover (-1)).seq.state = PausedFrom.preroll.back) ∧
      (running .playing .locked 0).seq.state = PausedFrom.playing.back ∧
      ((running .paused .locked 0).Ready ∧ (running .paused .locked 0).seq.state = .paused ∧
        (running .paused .locked 0).seq.pausedFrom = .preroll) ∧
      (let held := stream0 (running .paused .locked 4) (fun x => { x with state := .paused, pausedFrom := .playing })
       let s : State := { held with seq := { held.seq with pausedFrom := .playing } }
       s.Ready ∧ s.seq.state = .paused ∧
         ran (.showResume 1) s (fun t => (t.seq.state, (t.audio.streams.get 0).state, t.clock.armed, lastReply t)) =
           some (.playing, .playing, some 0, [0]) ∧
         ran (.showResume 1) s (fun t => (t.link.notices.get 2).detail) =
           some (some (.run .state (some 5) .paused .playing .none 4 0))) := by
  refine ⟨?_, ?_, ?_, ?_, ?_, ?_, ?_, ?_⟩ <;> decide

/-- A run with an end fade. -/
def fading (q : SeqState) (n : Nat) : State :=
  { running q .locked 10 with
    seq := { (running q .locked 10).seq with run := { Sequencer.fresh.run with endFade := n } } }

theorem test_meets_StopAndAbort :
    (safe.Ready ∧ safe.seq.state = .idle) ∧ (fading .ending 1).seq.state = .ending ∧
      ((fading .paused 1).Ready ∧ (fading .paused 1).seq.state ≠ .idle ∧ (fading .paused 1).seq.state ≠ .ending ∧
        0 < (fading .paused 1).seq.run.endFade) ∧
      ((fading .preroll 0).seq.run.endFade = 0 ∧ ran (.showStop 1) (fading .preroll 0) (·.seq.state) = some .idle) ∧
      (let s : State := { fading .playing 9 with light := { safe.light with
         fixtures := safe.light.fixtures.modify 95 (fun f => { f with cfg := { f.cfg with kind := .deck } }) } }
       s.Ready ∧ (s.light.fixtures.get 95).cfg.kind = .deck ∧ (s.light.fixtures.get 94).cfg.kind ≠ .deck ∧
         ran (.showStop 1) s (fun t => ((t.light.fixtures.get 95).live.master,
           (t.light.fixtures.get 95).live.fade.duration)) = some (s.light.settings.idleMaster, 9)) ∧
      ((fading .playing 0).Ready ∧ (fading .playing 0).NoReactions ∧
        ran (.showStop 1) (fading .playing 0) (fun t => ((t.link.notices.get 2).count, lastReply t)) = some (2, [0])) ∧
      (let s := stream0 (fading .playing 9) (fun x => { x with state := .playing })
       s.Ready ∧ ran (.showStop 1) s (fun t => ((t.audio.streams.get 0).state, (t.audio.streams.get 0).gain.duration,
         (t.audio.streams.get 1).state)) = some (.stopping, 500, .idle)) ∧
      ((fading .ending 1).Ready ∧ (fading .ending 1).seq.state ≠ .idle ∧ (fading .ending 1).NoReactions ∧
        ((fading .ending 1).water.pumps.get 7).live.state ≠ .faulted ∧
        ((fading .ending 1).water.pumps.get 7).live.state ≠ .locked) := by decide

theorem test_meets_FlagRequests : safe.Ready ∧ (running .playing .locked 0).Ready := by decide

theorem test_meets_IssueTakesOrSkips :
    let e : QueueEntry := queued { markCue 5 with cond := .take, arg := 15 } 5
    let s : State := { live with seq := { live.seq with flags := 0x8000 } }
    let cue : Nat → CueBody → Cue := fun target body => { markCue 5 with target := target, body := body }
    let heard : StreamState → State := fun x => stream0 musicalAt (fun t => { t with state := x })
    (s.conditionHolds e.action = true ∧ e.action.cond = .take ∧ e.action.body = .mark 7 ∧
      live.conditionHolds e.action = false) ∧
      (s.deliver (cue 47 (.jet 4095 500 .keep)) 5 ≠ s ∧ s.deliver (cue 48 (.jet 4095 500 .keep)) 5 = s) ∧
      ((live.water.pumps.get 7).live.state ≠ .faulted ∧ (live.water.pumps.get 7).live.state ≠ .locked ∧
        ((live.deliver (cue 7 (.pump 1001 0)) 5).water.pumps.get 7).live.target = 1000) ∧
      ((live.deliver { cue 95 (.lamp 255 0 0 0 9 8 .steady) with group := false } 5).light.fixtures.get 95).live.master = 8 ∧
      ((musicalAt.audio.tracks.get 62) = none ∧
        ((musicalAt.deliver (cue 3 (.audioStart 62 4096)) 5).link.notices.get 5).pending = true) ∧
      ((musicalAt.audio.tracks.get 63).isSome = true ∧
        ((musicalAt.deliver (cue 3 (.audioStart 63 4096)) 0).audio.streams.get 3).state = .playing ∧
        ((musicalAt.deliver (cue 3 (.audioStart 63 4096)) 1).audio.streams.get 3).state = .loading) ∧
      (((heard .playing).deliver (cue 0 (.audioStop 1)) 5).audio.streams.get 0).state = .stopping ∧
      (((heard .stopping).deliver (cue 0 (.audioStop 0)) 5).audio.streams.get 0).state = .idle ∧
      (((heard .paused).deliver (cue 0 (.audioStop 1)) 5).audio.streams.get 0).state = .idle ∧
      (((heard .loading).deliver (cue 0 (.audioGain 5000 9)) 5).audio.streams.get 0).gain.target = 4096 ∧
      ((heard .idle).deliver (cue 0 (.audioGain 5000 9)) 5) = heard .idle ∧
      (s.deliver (cue 0 (.flag 0x8000 1)) 5).seq.flags = 1 := by decide +kernel

/-- A PLAYING run over the cues of the worked loop (03): a cue at 2000 and a LOOP at 4000 back to it. -/
def looping (stack : List LoopEntry) (count : Nat) : State :=
  { stored (running .playing .locked 0) (entry .ready 2 0) [markCue 2000, loopCue 4000 0 count] with
    seq := { (running .playing .locked 0).seq with
      run := { Sequencer.fresh.run with count := 2 }, cursor := 1, loopStack := stack } }

theorem test_meets_ReadingACue :
    (∀ target count, (markCue 5).body ≠ .loop target count) ∧
      ((loopCue 4000 0 1).body = .loop 0 1 ∧ (looping [] 1).cueAt 0 = some (markCue 2000)) ∧
      (looping [⟨1, 0⟩] 1).seq.loopStack = ⟨(looping [⟨1, 0⟩] 1).seq.cursor, 0⟩ :: [] ∧
      (looping [⟨1, 255⟩] 255).seq.loopStack = ⟨(looping [⟨1, 255⟩] 255).seq.cursor, 255⟩ :: [] ∧
      (∀ e rest, (looping [] 0).seq.loopStack = e :: rest → e.cue ≠ (looping [] 0).seq.cursor) ∧
      (∀ e rest, (looping [⟨3, 1⟩] 1).seq.loopStack = e :: rest → e.cue ≠ (looping [⟨3, 1⟩] 1).seq.cursor) ∧
      (let s := looping [] 1
       s.nextCue = some (loopCue 4000 0 1) ∧ ({ s with clock := { s.clock with position := -1 } } : State).nextCue = none ∧
         sealFault ((s.store.cues.drop s.seq.run.first).take s.seq.run.count) 0 = none ∧ s.seq.run.count ≤ 4096 ∧
         s.seq.queue.length ≤ 256 ∧ (readAndIssue s.turns s).seq.loopOffset = 2000) ∧
      (let s : State := { running .playing .locked 9 with
         seq := { (running .playing .locked 9).seq with queue := [queued (markCue 9) 9] } }
       s.headDue = true ∧ ({ s with clock := { s.clock with position := 8 } } : State).headDue = false) ∧
      (let groups := fun g : JetGroup => { g with lead := 77 }
       let s : State := { safe with jets := { safe.jets with groups := safe.jets.groups.modify 15 groups } }
       let c : Cue := { markCue 5 with target := 15, group := true, body := .jet 0 0 .keep }
       s.lead c = 77 ∧ safe.lead { c with target := 1, body := .pump 0 0 } = 0 ∧
         safe.lead { c with body := .audioStop 0 } = 50 ∧ safe.lead (markCue 5) = 0) := by
  refine ⟨fun _ _ h => (by cases h), by decide, by decide, by decide, fun _ _ h => (by cases h), ?_, ?_, by decide,
    by decide⟩
  · intro e rest h
    cases h
    decide
  · refine ⟨?_, ?_, ?_, ?_, ?_, ?_⟩ <;> decide +kernel

theorem test_meets_JetConfigRequests :
    curve2 ≠ [] ∧
      (live.Ready ∧ (channelArgs (List.replicate 9 0)).wf = true ∧ live.out.mode = .live) ∧
      (safe.Ready ∧ safe.out.mode = .safe ∧
        48 ≤ ({ channelArgs (List.replicate 9 0) with channel := 48 } : ChannelArgs).channel.toNat ∧
        channelCfgOf { channelArgs (List.replicate 9 0) with lead := 4001 } = none) ∧
      ((channelArgs (List.replicate 9 0)).channel.toNat = (0 : Fin 48).val ∧
        (channelCfgOf (channelArgs (List.replicate 9 0))).isSome = true) ∧
      (16 ≤ (16 : Byte).toNat ∧ (4000 : Half).toNat ≤ 4000 ∧ 4000 < (4001 : Half).toNat ∧
        (15 : Byte).toNat = (15 : Fin 16).val) := by decide

theorem test_meets_FadesHeightsDemandsOpenings :
    let f : Fade := { start := 3000, target := 0, t0 := 0, duration := 100, held := false }
    Fade.zero.duration = 0 ∧ (f.held = false ∧ elapsed f.t0 99 < f.duration ∧ f.duration ≤ elapsed f.t0 100) ∧
      (4294967295 : Nat) < 2 ^ 32 ∧ (256 : Nat) ≤ 256 ∧
      (curve2.length = 9 ∧ curve2.getD 0 1 = 0 ∧ curve2.Pairwise (· ≤ ·) ∧ curve2.getD 8 0 ≤ 580 ∧
        (579 < curve2.getD 8 0 ∧ curve2.getD (7 : Fin 8).val 0 < 579 ∧ 579 ≤ curve2.getD ((7 : Fin 8).val + 1) 0)) := by
  decide

theorem test_meets_OpeningSlews :
    let c := atTheTops.jets.channels.get 0
    c.cfg.type = .proportional ∧ c.cfg.InRange ∧ c.live.opening ≤ 1000 ∧
      curveOpening c.cfg.curve 0 < c.live.opening ∧ (safe.jets.channels.get 0).live.opening < curveOpening c.cfg.curve 1 := by
  decide

/-- A LIVE plant with pump 0 RUNNING at 1080 units, a reserve of 300, channel 0 at the worked height of c2, and channels 1
and 2 with a demand: 1 is SWITCHED, and 2 at level 7 is EXCLUDED by an active ADMIT_LIMIT reaction. -/
def watered : State :=
  let raised (k : Nat) (type : ChannelType) (level : Nat) (c : Channel) : Channel :=
    { cfg := { c.cfg with kn := k, curve := curve2, type := type, switchedFlow := 150, level := level },
      live := { c.live with fade := { c.live.fade with start := 2000, target := 2000 } } }
  let s := pump0 live (fun p => { cfg := { p.cfg with address := 14, ratedFlow := 1200 },
                                  live := { p.live with state := .running, actual := 900 } })
  reaction0 { at_ s 10 with
      jets := { s.jets with channels := ((s.jets.channels.modify 0 (raised 200 .proportional 2)).modify 1
        (raised 0 .switched 2)).modify 2 (raised 200 .proportional 7) },
      water := { s.water with manifolds := s.water.manifolds.modify 0 (fun m => { m with reserve := 300 }) } }
    (reaction (.condition 0) .low (.admitLimit .a 7))

theorem test_meets_GrantsWithinUsableFlow :
    watered.phase = .running ∧
      (watered.clock.plantTime - (watered.water.manifolds.get (manifoldNum .a)).nextUpdate).toNat < 2 ^ 31 ∧
      (watered.jets.channels.get 2).cfg.manifold = .a ∧
      ran (.manifoldUpdate .a) watered (fun t => [0, 1, 2].map (fun c : Fin 48 =>
        ((t.jets.channels.get c).live.demand, (t.jets.channels.get c).live.grant, (t.jets.channels.get c).live.status))) =
        some [(559, 559, .full), (150, 150, .full), (559, 0, .excluded)] := by
  decide +kernel

theorem test_meets_LevelsAreServedInOrder :
    let os := offers ++ [⟨150, 2, .switched, false⟩, ⟨100, 3, .proportional, false⟩]
    (∀ o ∈ os, o.admitted 7 = true ∧ o.level < 7) ∧
      ((List.range 2).map (fun l => demandSum (atLevel 7 os l))).sum = 492 ∧ demandSum (atLevel 7 os 2) = 868 ∧
      demandSum (proportionals (atLevel 7 os 2)) = 718 ∧ (492 + 868 ≤ 1360) ∧ (1359 < 492 + 868) ∧
      (718 ≤ 1210 - 492) ∧ (1209 - 492 < 718) ∧ 491 < 492 := by decide

theorem test_meets_ManifoldUpdateTakesEffect :
    safe.phase = .running ∧
      2 ^ 31 ≤ ((at_ safe 14).clock.plantTime - ((at_ safe 14).water.manifolds.get (manifoldNum .b)).nextUpdate).toNat ∧
      ((at_ safe 15).clock.plantTime - ((at_ safe 15).water.manifolds.get (manifoldNum .b)).nextUpdate).toNat < 2 ^ 31 ∧
      (safe.jets.channels.get 0).cfg.manifold ≠ .b ∧
      ((watered.jets.channels.get 1).cfg.type = .switched ∧ (watered.jets.channels.get 1).cfg.manifold = .a ∧
        ran (.manifoldUpdate .a) watered (fun t => (t.jets.channels.get 1).live.opening) = some 1000) ∧
      ran (.manifoldUpdate .a) watered (fun t => ((t.jets.channels.get 3).live.hold.any,
        (t.jets.channels.get 3).live.demand, (t.jets.channels.get 3).live.status)) = some (false, 0, .idle) := by
  decide +kernel

/-- Fields of a PUMP_CONFIG for a pump and a drive address. -/
def pumpArgs (pump address : Byte) : PumpArgs :=
  { pump := pump, manifold := 1, address := address, ratedFlow := 16383, minSpeed := 1000, ramp := 65535, lead := 4000,
    startTimeout := 60 }

/-- A plant whose pump 0 has drive address 14. -/
def addressed : State := pump0 safe (fun p => { p with cfg := { p.cfg with address := 14 } })

theorem test_meets_PumpRequests :
    (live.Ready ∧ live.out.mode = .live) ∧
      (safe.Ready ∧ safe.out.mode = .safe ∧ 8 ≤ (pumpArgs 8 1).pump.toNat ∧ pumpCfgOf (pumpArgs 0 248) = none) ∧
      (addressed.Ready ∧ (pumpArgs 7 14).pump.toNat = (7 : Fin 8).val ∧ (pumpCfgOf (pumpArgs 7 14)).isSome = true ∧
        (∃ q : Fin 8, q ≠ 7 ∧ (addressed.water.pumps.get q).cfg.address = 14) ∧
        (∀ q : Fin 8, q ≠ 7 → (addressed.water.pumps.get q).cfg.address ≠ 247) ∧ addressed.NoReactions) ∧
      (let s : State := { awaiting id with out := safe.out }
       s.Ready ∧ s.out.mode = .safe ∧ s.water.poll.awaiting = some (0 : Fin 8) ∧ s.NoReactions ∧
         (pumpCfgOf (pumpArgs 0 0)).map (·.address) = some 0 ∧ (pumpCfgOf (pumpArgs 0 247)).map (·.address) = some 247 ∧
         ∀ q : Fin 8, q ≠ 0 → (s.water.pumps.get q).cfg.address ≠ 247) ∧
      ((running .playing .locked 0).Ready ∧ (running .playing .locked 0).seq.state ≠ .idle) ∧
      (safe.seq.state = .idle ∧ ¬ ((1 : Byte) = 0#8 ∧ (2 : Byte).toNat < 8 ∨ (1 : Byte) = 1#8 ∧ (2 : Byte).toNat < 2)) ∧
      (live.seq.state = .idle ∧ (1 : Byte) = 1#8 ∧ (1 : Byte).toNat = (manifoldNum .b).val) ∧
      (safe.water.pumps.get 0).live.state ≠ .faulted ∧
      ((broken .miss true).Ready ∧ ((broken .miss true).water.pumps.get 0).live.state = .faulted ∧
        ((broken .miss true).water.pumps.get 0).live.exchange ≠ .good) ∧
      (((broken .good true).water.pumps.get 0).live.exchange = .good ∧
        ((broken .good true).water.pumps.get 0).live.ready = true ∧ (broken .good true).NoReactions) := by
  refine ⟨?_, ?_, ?_, ?_, ?_, ?_, ?_, ?_, ?_, ?_⟩ <;> decide +kernel

theorem test_meets_RampStepsTowardTheTarget :
    let p := atTheTops.water.pumps.get 0
    p.live.state ≠ .faulted ∧ p.live.state ≠ .locked ∧ p.live.target = p.live.commanded ∧ 0 < p.live.ramp ∧
      20000 < (20001 : Nat) ∧ ((broken .good true).water.pumps.get 0).live.state = .faulted := by decide

theorem test_meets_PollSlotRampsAndPolls :
    safe.phase = .running ∧ (safe.water.pumps.get safe.water.poll.next).cfg.address = 0 ∧
      ((addressed.water.pumps.get addressed.water.poll.next).cfg.address ≠ 0 ∧ addressed.NoReactions) ∧
      (let s := pump0 addressed (fun p => { p with live := { p.live with state := .faulted, target := 9 } })
       ran .pollSlot s (fun t => (t.water.pumps.get 0).live.commanded) = some 0) := by decide

theorem test_meets_DriveExchangeOutcomes :
    safe.phase = .running ∧ safe.water.poll.awaiting = none ∧ (awaiting id).phase = .running ∧
      ((awaiting id).water.poll.awaiting = some 0 ∧ (14 : Byte).toNat = (awaiting id).water.poll.polled ∧
        (0x3E#8 + 14 + 7 + 0xFF + 0xFF + 255 + 0xB0 : Byte) = 0#8 ∧ (7 : Byte).getLsbD 2 = true ∧
        ((awaiting id).water.pumps.get 0).live.state ≠ .faulted ∧
        ((awaiting id).water.pumps.get 0).live.state ≠ .locked ∧ (awaiting id).NoReactions) ∧
      ((3 : Byte).getLsbD 2 = false ∧ (0x3E#8 + 14 + 3 + 0 + 0 + 0 + 0xB1 : Byte) = 0#8) ∧
      (let bad : List Byte := [0x3E, 14, 3, 0, 0, 0, 0xB2]
       bad.length = 7 ∧ bad.head? = some 0x3E#8 ∧ bad.foldl (· + ·) 0#8 ≠ 0#8) ∧
      (let other : List Byte := [0x3E, 15, 3, 0, 0, 0, 0xB0]
       other.length = 7 ∧ other.head? = some 0x3E#8 ∧ other.foldl (· + ·) 0#8 = 0#8 ∧
         (other.getD 1 0#8).toNat ≠ (awaiting id).water.poll.polled) ∧
      (([0x3E, 14] : List Byte).length ≠ 7 ∧ ([0x3D, 14, 3, 0, 0, 0, 0xB2] : List Byte).head? ≠ some 0x3E#8) ∧
      (let s := awaiting (fun l => { l with misses := 2 })
       3 ≤ (s.water.pumps.get 0).live.misses + 1 ∧ (s.water.pumps.get 0).live.state ≠ .faulted ∧
         (s.water.pumps.get 0).live.state ≠ .locked ∧
         ran .pollMiss s (fun t => (t.water.pumps.get 0).live.fault) = some (some .linkLost)) ∧
      (let s := at_ (pump0 live (fun p => { p with live := { p.live with state := .starting } })) 10000
       (s.water.pumps.get 0).live.state = .starting ∧
         1000 * (s.water.pumps.get 0).cfg.startTimeout ≤ elapsed (s.water.pumps.get 0).live.startTime s.clock.plantTime) ∧
      (let s := at_ (pump0 live (fun p => { p with live := { p.live with state := .starting } })) 9999
       elapsed (s.water.pumps.get 0).live.startTime s.clock.plantTime < 1000 * (s.water.pumps.get 0).cfg.startTimeout) := by
  decide

/-- A third miss and a start that has run out, with no reaction in use: the PUMP notices (R99). -/
theorem test_meets_DriveExchangeOutcomes_notices :
    (let s := awaiting (fun l => { l with state := .running, misses := 2 })
     s.NoReactions ∧ ran .pollMiss s (fun t => (t.link.notices.get 1).detail) =
       some (some (.pump 0 .linkLost .running 0 0))) ∧
      (let s := at_ (pump0 live (fun p => { p with live := { p.live with state := .starting } })) 10000
       s.NoReactions ∧ ran (.startTimeout 0) s (fun t => (t.link.notices.get 1).detail) =
         some (some (.pump 0 .startTimeout .starting 0 10000))) := by decide

/-- A plant in AUTOMATIC: condition 0 carries the WIND_PULSE role. -/
def automatic : State := condition0 live (fun c => { c with cfg := { c.cfg with role := .windPulse } })

theorem test_meets_ClockManifoldWindRequests :
    (live.Ready ∧ live.out.mode = .live) ∧ (safe.Ready ∧ safe.out.mode = .safe) ∧
      (2 ≤ (2 : Byte).toNat ∧ 16383 < (16384 : Half).toNat ∧ (1 : Byte).toNat = (1 : Fin 2).val ∧
        (16383 : Half).toNat ≤ 16383) ∧
      ((windArgs gustThresholds (List.replicate 4 gustZone)).wf = true ∧
        (windCfgOf (windArgs gustThresholds (List.replicate 4 gustZone))).isSome = true ∧
        windCfgOf { windArgs gustThresholds (List.replicate 4 gustZone) with hysteresis := 41 } = none) ∧
      (automatic.Ready ∧ ∃ c ∈ automatic.trip.conditions.cells, c.cfg.role = .windPulse) ∧
      ((∀ c ∈ safe.trip.conditions.cells, c.cfg.role ≠ .windPulse) ∧ min (0 : Byte).toNat 7 = safe.wind.band ∧
        min (8 : Byte).toNat 7 ≠ safe.wind.band ∧ safe.NoReactions) := by decide

/-- A gate that ends in AUTOMATIC at band 1 with an average. -/
def gusty (average calm : Nat) : State :=
  at_ { automatic with wind := { automatic.wind with
    band := 1, calm := calm, history := ⟨average * 3, 0, 0⟩ } } 1000

theorem test_meets_GateEndMeasures :
    (at_ safe 999).phase = .running ∧ elapsed (at_ safe 999).wind.gateStart (at_ safe 999).clock.plantTime < 1000 ∧
      (1000 ≤ elapsed (at_ safe 1000).wind.gateStart (at_ safe 1000).clock.plantTime ∧
        (at_ safe 1000).wind.cfg.InRange ∧ (at_ safe 1000).wind.band ≤ 7) ∧
      (¬ ∃ c ∈ safe.trip.conditions.cells, c.cfg.role = .windPulse) ∧
      (let g := (gusty 70 0).wind
       (∃ c ∈ (gusty 70 0).trip.conditions.cells, c.cfg.role = .windPulse) ∧ g.band < 7 ∧ g.cfg.InRange ∧
         g.cfg.threshold (g.band + 1) ≤ (0 + g.history.newest + g.history.middle) / 3) ∧
      (let g := (gusty 29 59).wind
       (0 + g.history.newest + g.history.middle) / 3 < g.cfg.threshold (g.band + 1) ∧ 1 ≤ g.band ∧
         (0 + g.history.newest + g.history.middle) / 3 + g.cfg.hysteresis < g.cfg.threshold g.band ∧
         g.calm + 1 = g.cfg.calmHold) ∧
      (let g := (gusty 30 58).wind
       g.cfg.threshold g.band ≤ (0 + g.history.newest + g.history.middle) / 3 + g.cfg.hysteresis ∧
         g.calm + 1 ≠ g.cfg.calmHold) := by decide

/-- A rise and a fall of the band, with no reaction in use: the WIND notice and the zones' source band (R119). -/
theorem test_meets_GateEndMeasures_changes :
    (gusty 70 0).NoReactions ∧ (gusty 29 59).NoReactions ∧
      ran .gateEnd (gusty 70 0) (fun t => ((t.link.notices.get 4).detail, t.wind.bandChanges)) =
        some (some (.wind .rise 1 2 70 1000), 1) ∧
      ran .gateEnd (gusty 29 59) (fun t => ((t.link.notices.get 4).detail, (t.wind.zones.get 3).sourceBand)) =
        some (some (.wind .fall 1 0 29 1000), 0) := by decide

theorem test_meets_TrimStepMoves :
    safe.phase = .running ∧ 2 ^ 31 ≤ ((at_ safe 99).clock.plantTime - (at_ safe 99).wind.nextTrim).toNat ∧
      ((at_ safe 100).clock.plantTime - (at_ safe 100).wind.nextTrim).toNat < 2 ^ 31 := by decide

/-- Fields of a FIXTURE_CONFIG for a fixture and a base slot. -/
def fixtureArgs (fixture : Byte) (base : Half) : FixtureArgs :=
  { fixture := fixture, base := base, kind := 1, bound := 47, lead := 500 }

/-- A plant whose fixture 20 stands at base slot 101, and which has sent a frame. -/
def lit : State :=
  { safe with light := { safe.light with
      fixtures := safe.light.fixtures.modify 20 (fun f => { f with cfg := { f.cfg with base := 101 } }),
      line := List.replicate 25 0, lastSlots := 24 } }

theorem test_meets_LightConfigRequests :
    (live.Ready ∧ live.out.mode = .live) ∧
      (lit.Ready ∧ lit.out.mode = .safe ∧ 96 ≤ (fixtureArgs 96 1).fixture.toNat ∧ 509 < (fixtureArgs 0 510).base.toNat) ∧
      ((fixtureArgs 95 509).fixture.toNat = (95 : Fin 96).val ∧ (fixtureArgs 95 509).base.toNat ≤ 509 ∧
        (fixtureArgs 95 509).lead.toNat ≤ 500 ∧ (fixtureArgs 95 509).kind.toNat ≤ 2 ∧ (fixtureArgs 95 509).kind = 1#8 ∧
        (fixtureArgs 95 509).bound.toNat = (47 : Fin 48).val) ∧
      (104 < (lit.light.fixtures.get 20).cfg.base + 4 ∧ (lit.light.fixtures.get 20).cfg.base < 104 + 4 ∧
        ∀ z : Fin 96, z.val < 20 → (lit.light.fixtures.get z).cfg.base = 0) ∧
      ¬ (105 < (lit.light.fixtures.get 20).cfg.base + 4) ∧
      ((15 : Byte).toNat = (15 : Fin 16).val ∧ (500 : Half).toNat ≤ 500 ∧ 500 < (501 : Half).toNat ∧
        16 ≤ (16 : Byte).toNat) ∧
      ((24 : Half).toNat < 25 ∧ 1000 < (1001 : Half).toNat ∧ lit.light.line ≠ [] ∧ safe.light.line = [] ∧ 25 ≤ (25 : Half).toNat) := by
  decide +kernel

theorem test_meets_DirectSetsDeliver :
    ((running .playing .locked 0).Ready ∧ (running .playing .locked 0).seq.state ≠ .idle) ∧
      (safe.Ready ∧ safe.seq.state = .idle ∧
        ¬ ((0 : Byte) = 0#8 ∧ (48 : Byte).toNat < 48 ∨ (0 : Byte) = 1#8 ∧ (48 : Byte).toNat < 16) ∧
        ¬ ((8 : Byte).toNat < 8 ∨ (8 : Byte) = 0xFF#8 ∨ (8 : Byte) = 0xFE#8)) ∧
      ((0 : Byte) = 0#8 ∧ (47 : Byte).toNat < 48 ∧
        ∀ c : Fin 48, decide (c = 47) = ((47 : Byte).toNat == c.val)) ∧
      ((1 : Byte) = 1#8 ∧ (15 : Byte).toNat = (15 : Fin 16).val ∧ (0xFE : Byte) = 0xFE#8) ∧
      (¬ ((0 : Byte) = 0#8 ∧ (96 : Byte).toNat < 96 ∨ (0 : Byte) = 1#8 ∧ (96 : Byte).toNat < 16) ∧ 2 ≤ (2 : Byte).toNat) ∧
      ((95 : Byte).toNat < 96 ∧ (1 : Byte).toNat < 2) := by decide

theorem test_meets_LightingFrameCaps :
    let due : State → Prop := fun s => (s.clock.plantTime - s.light.nextFrame).toNat < 2 ^ 31 ∧
      (s.light.line = [] ∨ 112 + 44 * (s.light.lastSlots + 1) ≤ 1000 * elapsed s.light.lastFrame s.clock.plantTime)
    live.phase = .running ∧ due live ∧ ¬ due (at_ lit 1) ∧ due (at_ lit 2) ∧ lit.out.mode = .safe ∧
      (1 ≤ (lit.light.fixtures.get 20).cfg.base ∧
        ∀ y : Fin 96, y ≠ 20 →
          basesOverlap (lit.light.fixtures.get 20).cfg.base (lit.light.fixtures.get y).cfg.base = false) ∧
      (let r : Reaction := { reaction .anyPumpFaulted .low (.lampLimit .all 80) with latch := false }
       let red := fun f : Fixture => { f with live := { f.live with
         master := 200, fade := { f.live.fade with target := Colour.widen 255 0 0 0 } } }
       let bright := reaction0 { live with light := { live.light with fixtures := live.light.fixtures.map red } } r
       (reaction0 live r).isActive r = true ∧ r.cfg.kind = .lampLimit .all 80 ∧ LampKind.all.covers .basin = true ∧
         ran .lightingFrame bright (fun t => ((t.light.fixtures.get 0).live.intensity,
           (t.light.fixtures.get 0).live.output, (t.light.fixtures.get 0).live.limits)) =
           some (80, ⟨80, 0, 0, 0⟩, ⟨false, true, false⟩)) ∧
      (255 : Nat) ≤ 255 := by
  refine ⟨by decide, by decide, ?_, ?_, by decide, by decide, by decide, by decide⟩
  · rintro ⟨_, h | h⟩
    · cases h
    · exact absurd h (by decide)
  · exact ⟨by decide, Or.inr (by decide)⟩

/-- Fixture 20 at slots 101 to 104 makes a frame of 104 slots, and slot 100 is nobody's; with no fixture there are 24
(R138). -/
theorem test_meets_LightingFrameCaps_slots :
    (∀ x : Fin 96, ¬ (1 ≤ (lit.light.fixtures.get x).cfg.base ∧ (lit.light.fixtures.get x).cfg.base ≤ 100 ∧
        100 ≤ (lit.light.fixtures.get x).cfg.base + 3)) ∧
      ran .lightingFrame (at_ lit 2) (fun t => (t.light.lastSlots, t.light.line[100]?)) = some (104, some 0#8) ∧
      ran .lightingFrame live (·.light.lastSlots) = some 24 := by decide

theorem test_meets_AudioRequests :
    (live.Ready ∧ live.out.mode = .live) ∧
      (safe.Ready ∧ safe.out.mode = .safe ∧ 64 ≤ (64 : Byte).toNat ∧ 2 ≤ (2 : Byte).toNat ∧
        (63 : Byte).toNat = (63 : Fin 64).val ∧ (1 : Byte).toNat < 2) := by decide

/-- A lone stream inside a slot. -/
def sounding : State :=
  stream0 live (fun t => { t with state := .playing, ring := [[⟨1, 2⟩]], leftToPlay := 9 })

/-- S0 PLAYING at a slot boundary of a run with an EXTERNAL clock at position 1, on track 63 of 600 frames. -/
def atBoundary (framesOutput left : Nat) (ring : List (List AudioFrame)) : State :=
  stream0 { running .playing .locked 1 with audio := musicalAt.audio }
    (fun t => { t with state := .playing, boundary := true, track := 63, framesOutput := framesOutput, leftToPlay := left,
                       ring := ring, gain := { t.gain with start := 4096, target := 4096 } })

/-- What an output frame gives on the left, and S0's frames output, frames left and silence left then. -/
def heardAt (s : State) : Option (Int × Nat × Nat × Nat) :=
  ran .outputFrame s (fun t => (t.audio.outLeft, (t.audio.streams.get 0).framesOutput,
    (t.audio.streams.get 0).leftToPlay, (t.audio.streams.get 0).silenceLeft))

/-- R154: e is the frames output less 48 at position 1; at 48 and −48 nothing slips, beyond them S0 repeats or skips, and
beyond 4800 it jumps to frame 560. R149: an empty ring underruns. -/
theorem test_outputFrame_at_a_boundary :
    heardAt (atBoundary 96 9 [[⟨1, 2⟩, ⟨3, 4⟩]]) = some (1, 97, 8, 0) ∧
      heardAt (atBoundary 97 9 [[⟨1, 2⟩, ⟨3, 4⟩]]) = some (1, 97, 9, 0) ∧
      heardAt (atBoundary 0 9 [[⟨1, 2⟩, ⟨3, 4⟩]]) = some (1, 1, 8, 0) ∧
      heardAt { atBoundary 0 9 [[⟨1, 2⟩, ⟨3, 4⟩]] with clock := { (running .playing .locked 2).clock with position := 2 } } =
        some (3, 2, 7, 0) ∧
      heardAt (atBoundary 4849 9 [[⟨1, 2⟩, ⟨3, 4⟩]]) = some (0, 560, 40, 511) ∧
      heardAt (atBoundary 48 9 []) = some (0, 49, 8, 511) := by
  refine ⟨?_, ?_, ?_, ?_, ?_, ?_⟩ <;> decide +kernel

theorem test_meets_AudioEvents :
    live.phase = .running ∧ (∀ i : Fin 4, (live.audio.streams.get i).state.sounding = false) ∧
      (let x := sounding.audio.streams.get 0
       x.state = .playing ∧ x.boundary = false ∧ x.silenceLeft = 0 ∧ x.ring = [⟨1, 2⟩] :: [] ∧
         [(⟨1, 2⟩ : AudioFrame)][x.headPos]? = some ⟨1, 2⟩ ∧
         ∀ j : Fin 4, j ≠ 0 → (sounding.audio.streams.get j).state.sounding = false) ∧
      (let s := at_ (stream0 live (fun t => { t with state := .stopping, gain := { t.gain with duration := 500 } })) 500
       (s.audio.streams.get 0).state = .stopping ∧
         (s.audio.streams.get 0).gain.duration ≤ (s.audio.streams.get 0).gain.elapsedAt s.clock.plantTime) ∧
      (let s := running .playing .locked 0
       s.seq.state = .playing ∧ s.seq.cursor = s.seq.run.count ∧ s.seq.queue = [] ∧
         (s.audio.streams.get 0).state = .idle ∧
         ran (.stopFadeEnd 0) (stream0 s (fun t => { t with state := .stopping })) (·.seq.endReason) = some .natural) ∧
      (let s := at_ (stream0 live (fun t => { t with state := .stopping, gain := { t.gain with duration := 500 } })) 499
       (s.audio.streams.get 0).gain.elapsedAt s.clock.plantTime < (s.audio.streams.get 0).gain.duration) ∧
      (let s := atBoundary 4849 9 []
       let x := s.audio.streams.get 0
       let e : Int := x.framesOutput - 48 * s.clock.position
       (x.state = .playing ∧ s.seq.state = .playing ∧ s.clock.source = .external) ∧ 4800 < e ∧ 0 ≤ s.clock.position ∧
         x.track = (63 : Fin 64).val ∧ (s.audio.tracks.get 63).isSome = true ∧ x.boundary = true ∧
         ∀ j : Fin 4, j ≠ 0 → (s.audio.streams.get j).state.sounding = false) ∧
      (let s := atBoundary 4848 2 []
       let e : Int := (s.audio.streams.get 0).framesOutput - 48 * s.clock.position
       ¬ (4800 < e ∨ e < -4800) ∧ (s.audio.streams.get 0).ring = [] ∧ s.audio.read = none ∧
         2 ≤ (s.audio.streams.get 0).leftToPlay) ∧
      (let read : RefillRead := { stream := 0, address := 0x100000, frames := 512, format := .mono16, discarded := false }
       read.stream = (0 : Fin 4) ∧ read.discarded = false) ∧
      (let fresh := live.audio.streams.get 0
       let loud : Stream := { fresh with
         state := .playing, ring := [[⟨20000, -20000⟩]], leftToPlay := 9, gain := { fresh.gain with target := 4096 } }
       let two := (live.audio.streams.set 0 loud).set 1 { loud with state := .stopping }
       let three := two.set 2 { loud with state := .paused }
       let s : State := { live with audio := { live.audio with streams := three } }
       (s.audio.streams.get 0).silenceLeft = 0 ∧ (s.audio.streams.get 1).state = .stopping ∧
         (s.audio.streams.get 2).state = .paused ∧ s.seq.state ≠ .playing ∧
         ran .outputFrame s (fun t => (t.audio.outLeft, t.audio.outRight, t.audio.clip)) =
           some (32767, -32767, true) ∧
         ran .outputFrame s (fun t => [0, 1, 2, 3].map (fun i : Fin 4 => (t.audio.streams.get i).framesOutput)) =
           some [1, 1, 0, 0]) := by decide

/-- A plant with a refill read in progress. -/
def reading (address : Nat) (discarded : Bool) : State :=
  { live with audio := { live.audio with
      read := some { stream := 3, address := address, frames := 512, format := .stereo16, discarded := discarded } } }

theorem test_meets_RefillReads :
    (live.phase = .running ∧ live.audio.read = none) ∧
      ((reading 0x3FFFF801 false).audio.read.isSome = true ∧
        1073741824 < 0x3FFFF801 + 512 * TrackFormat.stereo16.frameBytes) ∧
      0x3FFFF800 + 512 * TrackFormat.stereo16.frameBytes ≤ 1073741824 ∧
      (reading 0x100000 true).audio.read.isSome = true ∧
      (live.flash.op = none ∧ ∀ i : Fin 4, (live.audio.streams.get i).state = .idle) ∧
      (let x := (stream0 live (fun t => { t with state := .loading, leftToRead := 1 })).audio.streams.get 0
       x.state ≠ .idle ∧ x.ring.length < x.share ∧ 0 < x.leftToRead) := by decide

/-- The arbiter chooses again at a completion, at an output frame and at the end of a flash operation (R144). -/
theorem test_meets_RefillReads_again :
    let ready := fun s : State => stream0 s (fun t => { t with state := .loading, leftToRead := 1 })
    let chose : Instr → State → Option (Option (Fin 4)) := fun c s => ran c s (fun t => t.audio.read.map (·.stream))
    let held := ready (flashing safe true (.erase 0x100000))
    chose .refillReadComplete (ready (reading 0x100000 true)) = some (some 0) ∧
      chose .outputFrame (ready live) = some (some 0) ∧
      (held.flash.op.isSome = true ∧ chose (.flashOperationDone false) held = some (some 0) ∧
        chose .flashTimeout (at_ held 1000) = some (some 0) ∧
        ran .flashTimeout (at_ held 1000) (fun t => t.flash.op.isSome) = some false) := by decide

theorem test_meets_FlashRequestsBegin :
    (sounding.Ready ∧ ¬ ∀ t ∈ sounding.audio.streams.cells, t.state = .idle) ∧
      (safe.Ready ∧ (∀ t ∈ safe.audio.streams.cells, t.state = .idle) ∧ (List.replicate 256 (7 : Byte)).length = 256) ∧
      ((0x3FFFF000 : Quad).toNat % 4096 = 0 ∧ 1048576 ≤ (0x3FFFF000 : Quad).toNat ∧
        (0x3FFFF000 : Quad).toNat + 4096 ≤ 1073741824 ∧ (0x000FF000 : Quad).toNat < 1048576) ∧
      ((0x3FFFFF00 : Quad).toNat % 256 = 0 ∧ (0x3FFFFF00 : Quad).toNat + 256 ≤ 1073741824) ∧
      (1 ≤ (512 : Half).toNat ∧ (512 : Half).toNat ≤ 512 ∧ (0x3FFFFE00 : Quad).toNat + (512 : Half).toNat ≤ 1073741824 ∧
        512 < (513 : Half).toNat) ∧
      (let s : State := { sounding with link := { safe.link with replies := List.replicate 3 blankReply } }
       s.Ready ∧ 3 ≤ s.link.choose.replies.length ∧ ¬ ∀ t ∈ s.audio.streams.cells, t.state = .idle) ∧
      live.out.mode = .live ∧ safe.out.mode = .safe := by decide +kernel

theorem test_meets_FlashCompletes :
    let s := flashing safe true (.erase 0x100000)
    let w := flashing safe true (.write 0x100000 [0x3C])
    (s.phase = .running ∧ s.FlashCanonical ∧
      s.flash.op = some { tag := 9, job := .erase 0x100000, holding := true, started := 0 } ∧
      1000 ≤ elapsed 0 (at_ s 1000).clock.plantTime ∧ elapsed 0 (at_ s 999).clock.plantTime < 1000) ∧
      (w.FlashCanonical ∧ w.flash.op = some { tag := 9, job := .write 0x100000 [0x3C], holding := true, started := 0 } ∧
        10 ≤ elapsed 0 (at_ w 10).clock.plantTime ∧ elapsed 0 (at_ w 9).clock.plantTime < 10) ∧
      ((flashing safe false (.erase 0x100000)).flash.op.map (·.holding)) = some false ∧
      (flashing safe true (.read 0 512)).flash.op.map (·.job) = some (.read 0 512) := by decide

theorem test_meets_SaveStoresTheConfiguration :
    let s := flashing safe false (.save Image.factory (.erasing 0))
    let r := flashing safe true (.save Image.factory .reading)
    let filled : FlashUnit := { safe.flash with mem := [(0xFFF, 1), (0x1000, 2), (0x1FFF, 3), (0x2000, 4)] }
    (s.phase = .running ∧ s.audio.read = none ∧ s.flash.op.map (·.holding) = some false) ∧
      (r.flash.op.map (·.holding) = some true ∧ r.FlashCanonical) ∧
      (1000 ≤ elapsed 0 (at_ s 1000).clock.plantTime ∧ elapsed 0 (at_ s 999).clock.plantTime < 1000 ∧
        10 ≤ elapsed 0 (at_ s 10).clock.plantTime ∧ elapsed 0 (at_ s 9).clock.plantTime < 10) ∧
      ran .flashTimeout (at_ (flashing safe true (.save Image.factory (.erasing 0))) 1000) lastReply = some [21] ∧
      ran .flashTimeout (at_ (flashing safe true (.save Image.factory (.writing 0))) 10) lastReply = some [21] ∧
      filled.memAfter (.erasing 1) = [(0xFFF, 1), (0x2000, 4)] := by decide

/-- The image has a first byte, and some page lies beyond it. -/
theorem test_meets_SaveStoresTheConfiguration_image (n : Nat) :
    (∃ b, (imageBytes n)[0]? = some b) ∧ ∃ a, (imageBytes n).length ≤ a / 256 * 256 := by
  have h : 0 < (imageBytes n).length := by simp [imageBytes, le]
  exact ⟨⟨_, List.getElem?_eq_getElem h⟩, 256 * (imageBytes n).length, by omega⟩

theorem test_meets_InputEvents :
    (condition0 live (fun c => { c with due := true })).phase = .running ∧
      ((condition0 live (fun c => { c with due := true })).trip.conditions.get 0).due = true ∧
      (live.trip.conditions.get 0).due = false ∧ live.NoReactions ∧
      (let x := (condition0 live (fun c => { c with
          due := true, cfg := { c.cfg with source := .constHigh, role := .windPulse } })).trip.conditions.get 0
       x.cfg.role = .windPulse ∧ x.filtered = false ∧ (x.filter true).filtered = true) := by decide

/-- A run with one reaction in use, of a kind, on a RISE of condition 0; and the state before, with the condition LOW. -/
def tripped (q : SeqState) (kind : ReactionKind) : State × State :=
  let s := reaction0 (running q .holdover 5) (reaction (.condition 0) .rise kind)
  (s, condition0 s (fun c => { c with filtered := true }))

/-- What the Trip Unit makes of that transition: the sequencer's state, the mode, the flags, the latch, the notice. -/
def tripLeaves (q : SeqState) (kind : ReactionKind) : SeqState × PlantMode × Half × Bool × Nat :=
  let t := (tripped q kind).2.reactFrom (tripped q kind).1
  (t.seq.state, t.out.mode, t.seq.flags, (t.trip.reactions.get 0).latch, (t.link.notices.get 0).count)

/-- R171: each kind's once-effect. -/
theorem test_once_effects :
    tripLeaves .playing (.flagSet 15) = (.playing, .live, 0x8000, true, 1) ∧
      tripLeaves .preroll .showPause = (.paused, .live, 0, true, 1) ∧
      tripLeaves .ending .showPause = (.ending, .live, 0, true, 1) ∧
      tripLeaves .paused .showAbort = (.idle, .live, 0, true, 1) ∧
      tripLeaves .playing .plantSafe = (.idle, .safe, 0, true, 1) ∧
      tripLeaves .playing (.zoneHold 3) = (.playing, .live, 0, true, 1) := by
  refine ⟨?_, ?_, ?_, ?_, ?_, ?_⟩ <;> decide +kernel

theorem test_meets_ReactionsTakeTheirEffects :
    let s := reaction0 (condition0 live (fun c => { c with due := true, cfg := { c.cfg with source := .constHigh } }))
      (reaction (.condition 0) .rise .plantSafe)
    s.phase = .running ∧ (s.trip.conditions.get 0).due = true ∧
      (s.trip.reactions.get 0).cfg.source = .condition 0 ∧ (s.trip.reactions.get 0).cfg.inUse = true ∧
      (s.trip.conditions.get 0).filtered = false ∧
      ran (.conditionSample 0) s (fun t => ((t.trip.conditions.get 0).filtered, t.out.mode)) = some (true, .safe) ∧
      (s.trip.conditions.get 0).cfg.role = .general ∧
      (let b := (tripped .idle .showAbort).1
       let a := (tripped .idle .showAbort).2
       let r := a.trip.reactions.get 0
       (∀ j : Fin 32, j ≠ 0 → (a.trip.reactions.get j).cfg.inUse = false) ∧ r.cfg.inUse = true ∧ r.cfg.trigger = .rise ∧
         b.sourceLevel r.cfg.source = false ∧ a.sourceLevel r.cfg.source = true ∧ r.latch = false ∧
         a.seq.state = .idle ∧ a.out.mode = .live) ∧
      (let s := awaiting (fun l => { l with misses := 2 })
       s.phase = .running ∧ s.water.poll.awaiting = some (0 : Fin 8) ∧ 2 ≤ (s.water.pumps.get 0).live.misses ∧
         (s.water.pumps.get 0).live.state ≠ .faulted ∧ (s.water.pumps.get 0).live.state ≠ .locked ∧
         ran .pollMiss s (fun t => (t.sourceLevel .anyPumpFaulted, t.sourceLevel .driveLinkLost)) = some (true, true)) ∧
      (let s : State := at_ { running .playing .locked 10 with
        clock := { (running .playing .locked 10).clock with armed := some 0 } } 5
       s.clock.state = .locked ∧ s.clock.armed = some 0 ∧ s.clock.stepTimeout ≤ elapsed 0 s.clock.plantTime ∧
         ¬ (s.seq.state = .playing ∧ 2000000000 ≤ s.clock.position + s.clock.stepTimeout) ∧
         2000000000 ≤ (1999999995 : Int) + s.clock.stepTimeout) := by
  decide +kernel

/-- A setting of a condition with a role, from line 31. -/
def setting (condition role : Byte) : SettingArgs :=
  { condition := condition, source := 0, sourceArg := 31, invert := 0, prescale := 0, window := 63, threshold := 63,
    role := role }

/-- Fields of a REACTION_CONFIG for reaction 31 on a source. -/
def reactionArgs (source : Byte) : ReactionArgs :=
  { reaction := 31, use := 0, source := source, sourceArg := 23, trigger := 2, release := 1, kind := 8, arg1 := 1,
    arg2 := 0 }

/-- A reaction that a HIGH condition holds latched. -/
def held : State :=
  condition0 (reaction0 safe { reaction (.condition 0) .rise .plantSafe with latch := true })
    (fun c => { c with filtered := true })

theorem test_meets_InputAndTripRequests :
    (live.Ready ∧ live.out.mode = .live) ∧
      (safe.Ready ∧ safe.out.mode = .safe ∧ (List.replicate 7 (0 : Byte)).length % 8 ≠ 0 ∧
        192 < (List.replicate 200 (0 : Byte)).length) ∧
      (24 ≤ (setting 24 0).condition.toNat ∧ conditionCfgOf { setting 0 0 with threshold := 64 } = none ∧
        ¬ ([setting 0 0, setting 0 1].map (·.condition)).Nodup) ∧
      ((conditionCfgOf (setting 23 1)).isSome = true ∧ (setting 23 1).condition.toNat = (23 : Fin 24).val ∧
        (setting 22 1).condition.toNat = (22 : Fin 24).val ∧ ([23, 22] : List (Fin 24)).Nodup) ∧
      (32 ≤ (32 : Byte).toNat ∧ reactionCfgOf { reactionArgs 0 with trigger := 4 } = none) ∧
      ((reactionArgs 0).reaction.toNat = (31 : Fin 32).val ∧ (reactionCfgOf (reactionArgs 0)).isSome = true) ∧
      (let r := held.trip.reactions.get 0
       held.Ready ∧ r.cfg.release = .hostWhenInactive ∧ r.latch = true ∧ r.cfg.trigger = .rise ∧
         held.sourceLevel r.cfg.source = true ∧ r.cfg.inUse = true) ∧
      (let auto : State := { automatic with out := safe.out, wind := { automatic.wind with
         band := 2, manualBand := 5, gateCount := 9, calm := 3 } }
       let toManual : List Byte := [0, 2, 0, 0, 0, 0, 1, 0]
       let toAutomatic : List Byte := [23, 2, 0, 0, 0, 0, 1, 3]
       auto.Ready ∧ (auto.trip.conditions.get 0).cfg.role = .windPulse ∧
         ran (.inputConfig 1 toManual) auto (fun t => (t.wind.gateCount, t.wind.calm, t.wind.band, t.wind.bandChanges)) =
           some (0, 0, 5, 1) ∧
         ran (.inputConfig 1 toManual) { auto with wind := { auto.wind with manualBand := 2 } }
           (fun t => (t.wind.gateCount, t.wind.band, t.wind.bandChanges)) = some (0, 2, 0) ∧
         ran (.inputConfig 1 toAutomatic) (at_ { safe with wind := auto.wind } 7)
           (fun t => (t.wind.gateStart, t.wind.band, t.wind.history)) = some (7, 2, ⟨0, 0, 0⟩) ∧
         ran (.inputConfig 1 [0, 2, 0, 0, 0, 0, 1, 3]) auto (·.wind.gateCount) = some 10 ∧
         ran (.inputConfig 1 [0, 1, 0, 0, 0, 0, 1, 3]) auto (·.wind.gateCount) = some 9 ∧
         auto.NoReactions ∧ auto.seq.state = .idle ∧
         ran (.inputConfig 1 toManual) auto (fun t => ((t.link.notices.get 4).detail, lastReply t)) =
           some (some (.wind .mode 2 5 0 0), [0])) ∧
      ({ reactionArgs 0 with reaction := 0 } : ReactionArgs).reaction.toNat = (0 : Fin 32).val ∧
      (safe.trip.reactions.get 31).cfg.inUse = false := by
  refine ⟨?_, ?_, ?_, ?_, ?_, ?_, ?_, ⟨?_, ?_, ?_, ?_, ?_, ?_, ?_, ?_, ?_, ?_⟩, ?_, ?_⟩ <;> decide +kernel

theorem test_meets_SetPlantRequest :
    (safe.Ready ∧ safe.out.mode = .safe ∧ 2 ≤ (2 : Byte).toNat) ∧
      (held.Ready ∧ ∃ r ∈ held.trip.reactions.cells, held.isActive r = true ∧ r.cfg.kind = .plantSafe) ∧
      (¬ ∃ r ∈ safe.trip.reactions.cells, safe.isActive r = true ∧ r.cfg.kind = .plantSafe) ∧
      (live.Ready ∧ live.out.mode = .live ∧ live.seq.state = .idle) ∧
      ((running .playing .locked 0).Ready ∧ (running .playing .locked 0).seq.state ≠ .idle ∧
        (running .playing .locked 0).NoReactions ∧
        ran (.setPlant 1 0) (running .playing .locked 0) (fun t => ((t.link.notices.get 2).detail, lastReply t)) =
          some (some (.run .state (some 5) .playing .idle .safe 0 0), [0, 0])) := by decide

/-- Fields of an OUTPUT_CONFIG for line 63 from condition 23. -/
def outputArgs : OutputArgs := { line := 63, source := 6, sourceArg := 23, invert := 1, safe := 1 }

theorem test_meets_OutputRequestsAndLines :
    (live.Ready ∧ live.out.mode = .live) ∧
      (safe.Ready ∧ safe.out.mode = .safe ∧ 64 ≤ (64 : Byte).toNat ∧ outputCfgOf { outputArgs with sourceArg := 24 } = none) ∧
      (outputArgs.line.toNat = (63 : Fin 64).val ∧ (outputCfgOf outputArgs).isSome = true) ∧
      ({ live with phase := .resetting } : State).phase ≠ .running ∧ live.phase = .running ∧
      (let s : State := { live with out := { live.out with pwmOn := true } }
       s.out.pwmOn = true ∧ live.out.pwmOn = false ∧
         ran (.setPlant 1 0) s (fun t => (t.out.mode, t.out.pwmOn)) = some (.safe, false)) := by decide

end Sys2Proof.Tests
end

section
/-! SUPPORT. Tables read as lists, and what a ready request leaves whose owner changes one block or none. -/

namespace Sys2Proof.Machine.JetChannels

/-! ### Tables as lists -/

theorem Table.cells_eq_map_get {α : Type} {n : Nat} (t : Table α n) : t.cells = (List.finRange n).map t.get := by
  apply List.ext_getElem
  · simp [t.size]
  · intro i h₁ h₂
    simp [Table.get]

theorem range_eq_map_val (n : Nat) : List.range n = (List.finRange n).map Fin.val := by
  apply List.ext_getElem
  · simp
  · intro i h₁ h₂
    simp

/-- Counting the records that a target reaches, by their numbers or by the places of their table. -/
theorem length_filter_range {n : Nat} {p : Nat → Bool} {reach : Fin n → Bool} (h : ∀ i : Fin n, p i.val = reach i) :
    ((List.range n).filter p).length = ((List.finRange n).filter reach).length := by
  have hp : p ∘ Fin.val = reach := funext h
  rw [range_eq_map_val, List.filter_map, List.length_map, hp]

/-! ### Modes -/

theorem State.live_iff (s : State) : s.live = true ↔ s.out.mode = .live := by simp [State.live]

theorem State.live_eq_false {s : State} (h : s.out.mode = .safe) : s.live = false := by simp [State.live, h]

theorem State.idle_iff (s : State) : s.idle = true ↔ s.seq.state = .idle := by simp [State.idle]

/-! ### Ready requests, by what their owner does -/

variable {s : State} {kind tag : Byte} {owner : State → State} {status : Status} {fields : List Byte}

theorem request_refuses (h : s.Ready) (ho : owner s.transmit.hunt = s.transmit.hunt.refuse kind tag status) :
    request kind tag owner s = .next (s.replied kind tag status []) := by
  rw [request_of_ready h, ho]
  rfl

theorem request_changes_jets {j : JetUnit} (h : s.Ready)
    (ho : owner s.transmit.hunt = ({ s.transmit.hunt with jets := j } : State).answer kind tag status fields) :
    request kind tag owner s = .next (({ s with jets := j } : State).replied kind tag status fields) := by
  rw [request_of_ready h, ho]
  rfl

theorem request_changes_light {l : LightUnit} (h : s.Ready)
    (ho : owner s.transmit.hunt = ({ s.transmit.hunt with light := l } : State).answer kind tag status fields) :
    request kind tag owner s = .next (({ s with light := l } : State).replied kind tag status fields) := by
  rw [request_of_ready h, ho]
  rfl

end Sys2Proof.Machine.JetChannels
end

section
/-! SUPPORT. The configuration of jet channels and groups (R67 to R69). -/

namespace Sys2Proof.Machine.JetChannels

/-! ### Curves (R67) -/

theorem risingFrom_iff (p : Nat) (qs : List Nat) :
    risingFrom p qs = true ↔ (p :: qs).Pairwise (· ≤ ·) ∧ ∀ f ∈ qs, f ≤ 16383 := by
  induction qs generalizing p with
  | nil => simp [risingFrom]
  | cons q qs ih =>
    simp only [risingFrom, Bool.and_eq_true, decide_eq_true_eq, ih, List.pairwise_cons, List.forall_mem_cons]
    constructor
    · rintro ⟨⟨hpq, hq⟩, ⟨hqs, hrise⟩, htop⟩
      exact ⟨⟨⟨hpq, fun f hf => Nat.le_trans hpq (hqs f hf)⟩, hqs, hrise⟩, hq, htop⟩
    · rintro ⟨⟨⟨hpq, -⟩, hqs, hrise⟩, hq, htop⟩
      exact ⟨⟨hpq, hq⟩, ⟨hqs, hrise⟩, htop⟩

theorem curveOk_iff {curve : List Nat} (h : curve ≠ []) : curveOk curve = true ↔
    curve.getD 0 1 = 0 ∧ curve.Pairwise (· ≤ ·) ∧ ∀ f ∈ curve, f ≤ 16383 := by
  cases curve with
  | nil => exact absurd rfl h
  | cons f fs => simp +contextual [curveOk, risingFrom_iff]

/-! ### Channel configurations (R67, R68) -/

theorem channelCfgOf_eq (a : ChannelArgs) : channelCfgOf a =
    if h : a.zone.toNat < 4 ∧ a.manifold.toNat ≤ 1 ∧ a.type.toNat ≤ 1 ∧ a.level.toNat ≤ 7 ∧ a.kn.toNat ≤ 4095 ∧
        curveOk (a.curve.map BitVec.toNat) = true ∧ a.switchedFlow.toNat ≤ 16383 ∧ a.lead.toNat ≤ 4000 ∧
        1 ≤ a.normalSlew.toNat ∧ a.normalSlew.toNat ≤ 1000 ∧ 1 ≤ a.tripSlew.toNat ∧ a.tripSlew.toNat ≤ 1000 then
      some { manifold := if a.manifold = 0#8 then .a else .b, zone := ⟨a.zone.toNat, h.1⟩,
             type := if a.type = 0#8 then .proportional else .switched, level := a.level.toNat, kn := a.kn.toNat,
             curve := a.curve.map BitVec.toNat, switchedFlow := a.switchedFlow.toNat, lead := a.lead.toNat,
             normalSlew := a.normalSlew.toNat, tripSlew := a.tripSlew.toNat }
    else none := by
  by_cases hm : a.manifold.toNat ≤ 1
  · by_cases hz : a.zone.toNat < 4
    · by_cases ht : a.type.toNat ≤ 1
      · simp only [channelCfgOf, manifoldOf_eq, below, channelTypeOf_eq, hm, hz, ht, if_true, dif_pos, true_and]
        rfl
      · simp [channelCfgOf, manifoldOf_eq, below, channelTypeOf_eq, hm, hz, ht]
    · simp [channelCfgOf, manifoldOf_eq, below, hm, hz]
  · simp [channelCfgOf, manifoldOf_eq, hm]

/-! ### The two requests, case by case (R68, R69) -/

theorem exec_channelConfig (tag : Byte) (a : ChannelArgs) (s : State) :
    exec (.channelConfig tag a) s = request 0x20#8 tag (configureChannel tag a) s := rfl

theorem exec_jetGroupConfig (tag : Byte) (a : JetGroupArgs) (s : State) :
    exec (.jetGroupConfig tag a) s = request 0x21#8 tag (configureJetGroup tag a) s := rfl

section
variable {s : State} {tag : Byte}

theorem configureChannel_live {a : ChannelArgs} (hw : a.wf = true) (h : s.out.mode = .live) :
    configureChannel tag a s = s.refuse 0x20#8 tag .notSafe := by
  simp [configureChannel, hw, (State.live_iff s).2 h]

theorem configureChannel_badArgument {a : ChannelArgs} (hw : a.wf = true) (h : s.out.mode = .safe)
    (hbad : 48 ≤ a.channel.toNat ∨ channelCfgOf a = none) :
    configureChannel tag a s = s.refuse 0x20#8 tag .badArgument := by
  rcases hbad with hc | hcfg
  · simp [configureChannel, hw, State.live_eq_false h, below_ge hc]
  · cases hb : below 48 a.channel <;> simp [configureChannel, hw, State.live_eq_false h, hcfg, hb]

theorem configureChannel_taken {a : ChannelArgs} (hw : a.wf = true) (h : s.out.mode = .safe) {c : Fin 48}
    (hc : a.channel.toNat = c.val) {cfg : ChannelCfg} (hcfg : channelCfgOf a = some cfg) :
    configureChannel tag a s =
      ({ s with jets := { s.jets with
          channels := s.jets.channels.modify c (fun x => { x with cfg := cfg }) } }).ok 0x20#8 tag := by
  simp [configureChannel, hw, State.live_eq_false h, below_lt c hc, hcfg]

theorem configureJetGroup_live {a : JetGroupArgs} (h : s.out.mode = .live) :
    configureJetGroup tag a s = s.refuse 0x21#8 tag .notSafe := by
  simp [configureJetGroup, (State.live_iff s).2 h]

theorem configureJetGroup_badArgument {a : JetGroupArgs} (h : s.out.mode = .safe)
    (hbad : 16 ≤ a.group.toNat ∨ 4000 < a.lead.toNat) :
    configureJetGroup tag a s = s.refuse 0x21#8 tag .badArgument := by
  rcases hbad with hg | hl
  · simp [configureJetGroup, State.live_eq_false h, below_ge hg]
  · have hl' : ¬ a.lead.toNat ≤ 4000 := by omega
    cases hb : below 16 a.group <;> simp [configureJetGroup, State.live_eq_false h, hl', hb]

theorem configureJetGroup_taken {a : JetGroupArgs} (h : s.out.mode = .safe) {g : Fin 16}
    (hg : a.group.toNat = g.val) (hl : a.lead.toNat ≤ 4000) :
    configureJetGroup tag a s =
      ({ s with jets := { s.jets with
          groups := s.jets.groups.set g { members := a.members, lead := a.lead.toNat } } }).ok 0x21#8 tag := by
  simp [configureJetGroup, State.live_eq_false h, below_lt g hg, hl]

end

/-- Settles O34: the operand forms one by one, then each request by the branch of its owner that its case selects. -/
theorem jetConfigRequests : Obligations.JetConfigRequests := by
  refine ⟨channelCfgOf_eq, fun _ => curveOk_iff, ?_, ?_⟩
  · intro s tag a hr hw
    rw [exec_channelConfig]
    exact ⟨fun h => request_refuses hr (configureChannel_live hw h),
      fun h hbad => request_refuses hr (configureChannel_badArgument hw h hbad),
      fun c cfg h hc hcfg => request_changes_jets hr (configureChannel_taken (s := s.transmit.hunt) hw h hc hcfg)⟩
  · intro s tag a hr
    rw [exec_jetGroupConfig]
    exact ⟨fun h => request_refuses hr (configureJetGroup_live h),
      fun h hbad => request_refuses hr (configureJetGroup_badArgument h hbad),
      fun g h hg hl => request_changes_jets hr (configureJetGroup_taken (s := s.transmit.hunt) h hg hl)⟩

end Sys2Proof.Machine.JetChannels
end

section
/-! SUPPORT. The opening of a channel: its curve opening and its slew (R81 to R83). -/

namespace Sys2Proof.Machine.JetChannels

/-! ### Curve openings (R81) -/

/-- Each segment adds at most its 125 steps of opening. -/
theorem curveSegment_le (g o : Nat) (curve : List Nat) : curveSegment g o curve ≤ o + 125 * (curve.length - 1) := by
  induction curve generalizing o with
  | nil => simp [curveSegment]
  | cons a tail ih =>
    cases tail with
    | nil => simp [curveSegment]
    | cons b rest =>
      have hnext := ih (o + 125)
      rw [curveSegment]
      simp only [List.length_cons, Nat.add_sub_cancel] at hnext ⊢
      split
      · next hseg =>
        have hshare : (g - a) * 125 / (b - a) ≤ 125 :=
          Nat.div_le_of_le_mul (Nat.mul_le_mul_right 125 (Nat.sub_le_sub_right hseg.2 a))
        omega
      · omega

theorem curveOpening_le {curve : List Nat} (h : curve.length = 9) (g : Nat) : curveOpening curve g ≤ 1000 := by
  have hseg := curveSegment_le g 0 curve
  rw [h] at hseg
  unfold curveOpening
  split
  · omega
  · split <;> omega

/-! ### The slew (R82) -/

/-- The slew in force: the trip slew while the channel is HELD (R82). -/
def slewInForce (c : Channel) : Nat := if c.live.hold.any = true then c.cfg.tripSlew else c.cfg.normalSlew

theorem Channel.take_curveOpening {c : Channel} (h : c.cfg.type = .proportional) (grant : Nat) (status : GrantStatus) :
    (c.take grant status).live.curveOpening = curveOpening c.cfg.curve grant := by
  simp [Channel.take, ChannelCfg.openingFor, h]

theorem Channel.take_opening {c : Channel} (h : c.cfg.type = .proportional) (grant : Nat) (status : GrantStatus) :
    (c.take grant status).live.opening =
      moveToward c.live.opening (curveOpening c.cfg.curve grant) (slewInForce c) (slewInForce c) := by
  simp [Channel.take, ChannelCfg.openingFor, ChannelCfg.drive, slewInForce, h]

theorem HoldReasons.any_iff (h : HoldReasons) : h.any = true ↔ h.zone ∨ h.safe ∨ h.abort := by
  simp [HoldReasons.any, or_assoc]

theorem moveToward_lt {o c : Nat} (h : o < c) (up down : Nat) : moveToward o c up down = min c (o + up) := by
  simp [moveToward, h]

theorem moveToward_ge {o c : Nat} (h : c ≤ o) (up down : Nat) : moveToward o c up down = max c (o - down) := by
  simp [moveToward, Nat.not_lt.2 h]

/-- Settles O36: the opening is `moveToward` the curve opening, whose two branches give each clause. -/
theorem openingSlews : Obligations.OpeningSlews := by
  intro c grant status hprop
  have hslew : (if c.live.hold.zone ∨ c.live.hold.safe ∨ c.live.hold.abort then c.cfg.tripSlew else c.cfg.normalSlew) =
      slewInForce c := by
    simp only [slewInForce, HoldReasons.any_iff]
  simp only [hslew, Channel.take_curveOpening hprop, Channel.take_opening hprop]
  have hcurve : c.cfg.InRange → curveOpening c.cfg.curve grant ≤ 1000 := by
    rintro ⟨-, -, hlen, -⟩
    exact curveOpening_le hlen grant
  generalize curveOpening c.cfg.curve grant = co at hcurve ⊢
  generalize c.live.opening = o
  refine ⟨trivial, ?_⟩
  rcases Nat.lt_or_ge o co with h | h
  · rw [moveToward_lt h]
    refine ⟨by omega, by omega, by omega, fun hr _ => ?_, by omega, by omega⟩
    have hco := hcurve hr
    omega
  · rw [moveToward_ge h]
    refine ⟨by omega, by omega, by omega, fun hr _ => ?_, by omega, by omega⟩
    have hco := hcurve hr
    omega

end Sys2Proof.Machine.JetChannels
end

section
/-! SUPPORT. Direct sets: which channels and fixtures a target reaches, and what each receives (R73, R74, R129,
R130). -/

namespace Sys2Proof.Machine.JetChannels

/-! ### What a target reaches (R21, R23) -/

/-- The target of a request that passes its checks: one thing by its number, or a group by its members. -/
theorem State.jetReach_eq {s : State} {index group : Byte} {reach : Fin 48 → Bool}
    (h : group = 0#8 ∧ index.toNat < 48 ∧ (∀ c, reach c = (index.toNat == c.val)) ∨
      ∃ g : Fin 16, group = 1#8 ∧ index.toNat = g.val ∧
        ∀ c, reach c = (s.jets.groups.get g).members.getLsbD c.val) (c : Fin 48) :
    s.jetReach (decide (group = 1#8)) index.toNat c.val = reach c := by
  rcases h with ⟨rfl, -, hreach⟩ | ⟨g, rfl, hg, hreach⟩
  · simp only [State.jetReach, hreach, BitVec.reduceEq, decide_false, Bool.false_eq_true, if_false]
    exact Bool.beq_comm
  · simp [State.jetReach, hreach, hg, Table.cells_getElem?]

theorem State.lampReach_eq {s : State} {index group : Byte} {reach : Fin 96 → Bool}
    (h : group = 0#8 ∧ index.toNat < 96 ∧ (∀ x, reach x = (index.toNat == x.val)) ∨
      ∃ g : Fin 16, group = 1#8 ∧ index.toNat = g.val ∧
        ∀ x, reach x = (s.light.groups.get g).members.getLsbD x.val) (x : Fin 96) :
    s.lampReach (decide (group = 1#8)) index.toNat x.val = reach x := by
  rcases h with ⟨rfl, -, hreach⟩ | ⟨g, rfl, hg, hreach⟩
  · simp only [State.lampReach, hreach, BitVec.reduceEq, decide_false, Bool.false_eq_true, if_false]
    exact Bool.beq_comm
  · simp [State.lampReach, hreach, hg, Table.cells_getElem?]

/-- A target that reaches something by its form is in range (R74, R130). -/
theorem targetOf_of_reach {one groups : Nat} {index group : Byte} {reach : Fin one → Bool}
    {member : Fin groups → Fin one → Bool}
    (h : group = 0#8 ∧ index.toNat < one ∧ (∀ c, reach c = (index.toNat == c.val)) ∨
      ∃ g : Fin groups, group = 1#8 ∧ index.toNat = g.val ∧ ∀ c, reach c = member g c) :
    targetOf one groups index group = some (decide (group = 1#8), index.toNat) := by
  apply targetOf_some
  rcases h with ⟨hz, hi, -⟩ | ⟨g, ho, hg, -⟩
  · exact .inl ⟨hz, hi⟩
  · exact .inr ⟨ho, hg ▸ g.isLt⟩

/-! ### Codes (R190, R191) -/

theorem levelCodeOf_none {b : Byte} (h : ¬ (b.toNat < 8 ∨ b = 0xFF#8 ∨ b = 0xFE#8)) : levelCodeOf b = none := by
  obtain ⟨hlevel, hkeep, hdefault⟩ : ¬ b.toNat < 8 ∧ b ≠ 0xFF#8 ∧ b ≠ 0xFE#8 := by simpa using h
  simp [levelCodeOf_eq, hlevel, hkeep, hdefault]

/-- What a level code in range does to the level override (R71). -/
theorem levelCodeOf_write {b : Byte} (h : b.toNat < 8 ∨ b = 0xFF#8 ∨ b = 0xFE#8) :
    ∃ l, levelCodeOf b = some l ∧ ∀ o, l.write o =
      if b = 0xFF#8 then o else if b = 0xFE#8 then none else some b.toNat := by
  rcases h with h | rfl | rfl
  · have hkeep : b ≠ 0xFF#8 := by rintro rfl; simp at h
    have hdefault : b ≠ 0xFE#8 := by rintro rfl; simp at h
    exact ⟨.level b.toNat, by simp [levelCodeOf_eq, h], fun o => by simp [LevelCode.write, hkeep, hdefault]⟩
  · exact ⟨.keep, rfl, fun o => rfl⟩
  · exact ⟨.default, rfl, fun o => rfl⟩

theorem lampModeOf_eq (b : Byte) :
    lampModeOf b = if b.toNat < 2 then some (if b = 0#8 then .steady else .follow) else none := by
  revert b
  decide

/-! ### The requests, case by case (R74, R130) -/

theorem exec_jetSet (tag : Byte) (a : JetSetArgs) (s : State) :
    exec (.jetSet tag a) s = request 0x22#8 tag (setJets tag a) s := rfl

theorem exec_fixtureSet (tag : Byte) (a : FixtureSetArgs) (s : State) :
    exec (.fixtureSet tag a) s = request 0x3B#8 tag (setFixtures tag a) s := rfl

section
variable {s : State} {tag : Byte}

theorem setJets_running {a : JetSetArgs} (h : s.seq.state ≠ .idle) :
    setJets tag a s = s.refuse 0x22#8 tag .showRunning := by
  simp [setJets, State.idle, h]

theorem setJets_badArgument {a : JetSetArgs} (h : s.seq.state = .idle)
    (hbad : ¬ (a.group = 0#8 ∧ a.index.toNat < 48 ∨ a.group = 1#8 ∧ a.index.toNat < 16) ∨
      ¬ (a.level.toNat < 8 ∨ a.level = 0xFF#8 ∨ a.level = 0xFE#8)) :
    setJets tag a s = s.refuse 0x22#8 tag .badArgument := by
  rcases hbad with htarget | hlevel
  · simp [setJets, (State.idle_iff s).2 h, targetOf_none htarget]
  · cases ht : targetOf 48 16 a.index a.group <;> simp [setJets, (State.idle_iff s).2 h, ht, levelCodeOf_none hlevel]

theorem setJets_taken {a : JetSetArgs} (h : s.seq.state = .idle) {group : Bool} {index : Nat}
    (htarget : targetOf 48 16 a.index a.group = some (group, index)) {level : LevelCode}
    (hlevel : levelCodeOf a.level = some level) :
    setJets tag a s =
      (s.giveJets (s.jetReach group index) a.height.toNat a.fade.toNat level false).answer 0x22#8 tag .ok
        (u16 ((List.range 48).filter (s.jetReach group index)).length) := by
  simp [setJets, (State.idle_iff s).2 h, htarget, hlevel]

theorem setFixtures_running {a : FixtureSetArgs} (h : s.seq.state ≠ .idle) :
    setFixtures tag a s = s.refuse 0x3B#8 tag .showRunning := by
  simp [setFixtures, State.idle, h]

theorem setFixtures_badArgument {a : FixtureSetArgs} (h : s.seq.state = .idle)
    (hbad : ¬ (a.group = 0#8 ∧ a.index.toNat < 96 ∨ a.group = 1#8 ∧ a.index.toNat < 16) ∨ 2 ≤ a.mode.toNat) :
    setFixtures tag a s = s.refuse 0x3B#8 tag .badArgument := by
  rcases hbad with htarget | hmode
  · simp [setFixtures, (State.idle_iff s).2 h, targetOf_none htarget]
  · cases ht : targetOf 96 16 a.index a.group <;>
      simp [setFixtures, (State.idle_iff s).2 h, ht, lampModeOf_eq, Nat.not_lt.2 hmode]

theorem setFixtures_taken {a : FixtureSetArgs} (h : s.seq.state = .idle) {group : Bool} {index : Nat}
    (htarget : targetOf 96 16 a.index a.group = some (group, index)) {mode : LampMode}
    (hmode : lampModeOf a.mode = some mode) :
    setFixtures tag a s =
      (s.giveLamps (s.lampReach group index) (.widen a.r.toNat a.g.toNat a.b.toNat a.w.toNat) a.fade.toNat
        a.master.toNat mode).answer 0x3B#8 tag .ok
        (u16 ((List.range 96).filter (s.lampReach group index)).length) := by
  simp [setFixtures, (State.idle_iff s).2 h, htarget, hmode]

end

/-! ### What each target reached receives (R73, R129) -/

theorem State.giveJets_get (s : State) (reach : Nat → Bool) (height fade : Nat) (level : LevelCode) (abort : Bool)
    (c : Fin 48) : (s.giveJets reach height fade level abort).jets.channels.get c =
      if reach c.val then
        { s.jets.channels.get c with live := (s.jets.channels.get c).live.give s.now height fade level abort }
      else s.jets.channels.get c := by
  simp [State.giveJets]

theorem State.giveLamps_get (s : State) (reach : Nat → Bool) (target : Colour) (fade master : Nat) (mode : LampMode)
    (x : Fin 96) : (s.giveLamps reach target fade master mode).light.fixtures.get x =
      if reach x.val then
        { s.light.fixtures.get x with live := (s.light.fixtures.get x).live.give s.now target fade master mode }
      else s.light.fixtures.get x := by
  simp [State.giveLamps]

/-- Settles O48: each request by the branch of its owner that its case selects; a delivery is read off its table. -/
theorem directSetsDeliver : Obligations.DirectSetsDeliver := by
  constructor
  · intro s tag a hr
    rw [exec_jetSet]
    refine ⟨fun h => request_refuses hr (setJets_running h),
      fun h hbad => request_refuses hr (setJets_badArgument h hbad), fun reach h hreach hlevel => ?_⟩
    obtain ⟨level, hcode, hwrite⟩ := levelCodeOf_write hlevel
    have htaken := request_changes_jets hr
      (setJets_taken (s := s.transmit.hunt) (tag := tag) h (targetOf_of_reach hreach) hcode)
    refine ⟨_, htaken, ?_, fun c => ?_⟩
    · rw [← length_filter_range (State.jetReach_eq hreach)]
      rfl
    · refine (State.giveJets_get s (s.jetReach (decide (a.group = 1#8)) a.index.toNat) a.height.toNat a.fade.toNat
        level false c).trans ?_
      rw [State.jetReach_eq hreach c]
      simp only [ChannelLive.give, Fade.restart, hwrite]
      rfl
  · intro s tag a hr
    rw [exec_fixtureSet]
    refine ⟨fun h => request_refuses hr (setFixtures_running h),
      fun h hbad => request_refuses hr (setFixtures_badArgument h hbad), fun reach h hreach hmode => ?_⟩
    have hcode : lampModeOf a.mode = some (if a.mode = 0#8 then .steady else .follow) := by
      rw [lampModeOf_eq, if_pos hmode]
    have htaken := request_changes_light hr
      (setFixtures_taken (s := s.transmit.hunt) (tag := tag) h (targetOf_of_reach hreach) hcode)
    refine ⟨_, htaken, ?_, fun x => ?_⟩
    · rw [← length_filter_range (State.lampReach_eq hreach)]
      rfl
    · refine (State.giveLamps_get s (s.lampReach (decide (a.group = 1#8)) a.index.toNat) _ _ _ _ x).trans ?_
      rw [State.lampReach_eq hreach x]
      rfl

end Sys2Proof.Machine.JetChannels
end

section
/-! SUPPORT. The allocation (R109, R110): the plan of each level from what the levels before it take, and the bound on
the grants. -/

namespace Sys2Proof.Machine.JetChannels

/-! ### The plans of the levels (R109) -/

/-- The plan of a level with demand `here` and proportional demand `share`, when the levels before it demand `before` of
a flow `u`. -/
def planGiven (u before here share : Nat) : LevelPlan :=
  if before + here ≤ u then .full else if before ≤ u then .scaled (u - before) share else .starved

theorem planGiven_of_lt {u before : Nat} (h : u < before) (here share : Nat) :
    planGiven u before here share = .starved := by
  simp [planGiven, Nat.not_le.2 h, show ¬ before + here ≤ u by omega]

/-- A level served in full leaves the levels after it the rest of the flow. -/
theorem planGiven_sub {u d : Nat} (h : d ≤ u) (before here share : Nat) :
    planGiven (u - d) before here share = planGiven u (d + before) here share := by
  have hfull : before + here ≤ u - d ↔ d + before + here ≤ u := by omega
  have hscaled : before ≤ u - d ↔ d + before ≤ u := by omega
  simp only [planGiven, hfull, hscaled, Nat.sub_sub]

section
variable {a : Nat} {os : List Offer}

theorem planLevels_cons_of_le {l r : Nat} (ls : List Nat) (h : demandSum (atLevel a os l) ≤ r) :
    planLevels a os (l :: ls) r = .full :: planLevels a os ls (r - demandSum (atLevel a os l)) := by
  simp [planLevels, h]

theorem planLevels_cons_of_lt {l r : Nat} (ls : List Nat) (h : r < demandSum (atLevel a os l)) :
    planLevels a os (l :: ls) r =
      .scaled r (demandSum (proportionals (atLevel a os l))) :: List.replicate ls.length .starved := by
  rw [planLevels, if_neg (Nat.not_le.2 h), List.map_const']

theorem planLevels_getElem? {ls : List Nat} {i : Nat} (h : i < ls.length) (r : Nat) :
    (planLevels a os ls r)[i]? = some (planGiven r ((ls.take i).map fun l => demandSum (atLevel a os l)).sum
      (demandSum (atLevel a os ls[i])) (demandSum (proportionals (atLevel a os ls[i])))) := by
  induction ls generalizing i r with
  | nil => simp at h
  | cons l ls ih =>
    rcases Nat.lt_or_ge r (demandSum (atLevel a os l)) with hlt | hle
    · rw [planLevels_cons_of_lt ls hlt]
      cases i with
      | zero => simp [planGiven, Nat.not_le.2 hlt]
      | succ j =>
        have hj : j < ls.length := by simpa using h
        rw [planGiven_of_lt (by rw [List.take_succ_cons, List.map_cons, List.sum_cons]; omega)]
        simp [hj]
    · rw [planLevels_cons_of_le ls hle]
      cases i with
      | zero => simp [planGiven, hle]
      | succ j =>
        have hj : j < ls.length := by simpa using h
        rw [List.getElem?_cons_succ, ih hj]
        simp only [planGiven_sub hle, List.take_succ_cons, List.map_cons, List.sum_cons, List.getElem_cons_succ]

theorem findIdx?_scaled_cons (r share : Nat) (plans : List LevelPlan) :
    (.scaled r share :: plans).findIdx? LevelPlan.isScaled = some 0 := by
  simp [List.findIdx?_cons, LevelPlan.isScaled]

theorem findIdx?_full_cons (plans : List LevelPlan) :
    (.full :: plans).findIdx? LevelPlan.isScaled = (plans.findIdx? LevelPlan.isScaled).map (· + 1) := by
  simp [List.findIdx?_cons, LevelPlan.isScaled]

theorem planLevels_scaled_iff {ls : List Nat} {i r : Nat} :
    (planLevels a os ls r).findIdx? LevelPlan.isScaled = some i ↔
      ∃ h : i < ls.length, ((ls.take i).map fun l => demandSum (atLevel a os l)).sum ≤ r ∧
        r < ((ls.take i).map fun l => demandSum (atLevel a os l)).sum + demandSum (atLevel a os ls[i]) := by
  induction ls generalizing i r with
  | nil => simp [planLevels]
  | cons l ls ih =>
    rcases Nat.lt_or_ge r (demandSum (atLevel a os l)) with hlt | hle
    · rw [planLevels_cons_of_lt ls hlt, findIdx?_scaled_cons]
      cases i with
      | zero => simp [hlt]
      | succ j =>
        simp only [List.take_succ_cons, List.map_cons, List.sum_cons]
        constructor
        · intro h
          cases h
        · rintro ⟨-, hbefore, -⟩
          omega
    · rw [planLevels_cons_of_le ls hle, findIdx?_full_cons]
      cases i with
      | zero => simp [hle]
      | succ j =>
        simp only [Option.map_eq_some_iff, Nat.add_right_cancel_iff, exists_eq_right, ih, List.length_cons,
          Nat.add_lt_add_iff_right, List.take_succ_cons, List.map_cons, List.sum_cons, List.getElem_cons_succ]
        refine exists_congr fun _ => ?_
        omega

theorem planLevels_unscaled_iff {ls : List Nat} {r : Nat} :
    (planLevels a os ls r).findIdx? LevelPlan.isScaled = none ↔
      (ls.map fun l => demandSum (atLevel a os l)).sum ≤ r := by
  induction ls generalizing r with
  | nil => simp [planLevels]
  | cons l ls ih =>
    simp only [List.map_cons, List.sum_cons]
    rcases Nat.lt_or_ge r (demandSum (atLevel a os l)) with hlt | hle
    · rw [planLevels_cons_of_lt ls hlt, findIdx?_scaled_cons]
      simp only [reduceCtorEq, false_iff]
      omega
    · rw [planLevels_cons_of_le ls hle, findIdx?_full_cons, Option.map_eq_none_iff, ih]
      omega

end

/-! ### The grant of an offer (R109) -/

/-- The flow that an admitted offer gets from the plan of its level. -/
def flowFrom (o : Offer) : LevelPlan → Nat
  | .full => o.demand
  | .starved => 0
  | .scaled r share =>
    match o.type with
    | .switched => 0
    | .proportional => if share ≤ r then o.demand else o.demand * r / share

theorem Offer.grant_flow (o : Offer) (a : Nat) (plans : List LevelPlan) :
    (o.grant a plans).1 = if o.admitted a = true then flowFrom o (plans.getD o.level .starved) else 0 := by
  unfold Offer.grant Offer.admitted flowFrom
  cases hheld : o.held
  · by_cases hzero : o.demand = 0
    · simp [hzero]
    · by_cases hout : a ≤ o.level
      · simp [hout, hzero, Nat.not_lt.2 hout]
      · have hin : o.level < a := by omega
        simp only [hout, hin, hzero]
        cases plans.getD o.level .starved <;> cases o.type <;> simp [apply_ite Prod.fst, hzero]
  · simp

theorem Offer.grant_held {o : Offer} (h : o.held = true) (a : Nat) (plans : List LevelPlan) :
    o.grant a plans = (0, .held) := by
  simp [Offer.grant, h]

theorem Offer.grant_idle {o : Offer} (h : o.held = false) (hd : o.demand = 0) (a : Nat) (plans : List LevelPlan) :
    o.grant a plans = (0, .idle) := by
  simp [Offer.grant, h, hd]

theorem Offer.grant_excluded {o : Offer} (h : o.held = false) (hd : o.demand ≠ 0) {a : Nat} (ha : a ≤ o.level)
    (plans : List LevelPlan) : o.grant a plans = (0, .excluded) := by
  simp [Offer.grant, h, hd, ha]

theorem flowFrom_le_demand (o : Offer) (p : LevelPlan) : flowFrom o p ≤ o.demand := by
  cases p with
  | full => exact Nat.le_refl _
  | starved => exact Nat.zero_le _
  | scaled r share =>
    unfold flowFrom
    cases o.type with
    | switched => exact Nat.zero_le _
    | proportional =>
      simp only
      split
      · exact Nat.le_refl _
      · next h => exact Nat.div_le_of_le_mul (by rw [Nat.mul_comm]; exact Nat.mul_le_mul_right _ (by omega))

theorem Offer.grant_le_demand (o : Offer) (a : Nat) (plans : List LevelPlan) : (o.grant a plans).1 ≤ o.demand := by
  rw [Offer.grant_flow o]
  split
  · exact flowFrom_le_demand o _
  · exact Nat.zero_le _

/-! ### The grants sum to no more than the flow (R108, R109) -/

theorem sum_map_ite_zero {α : Type} (p : α → Bool) (f : α → Nat) (xs : List α) :
    (xs.map fun x => if p x = true then f x else 0).sum = ((xs.filter p).map f).sum := by
  induction xs with
  | nil => rfl
  | cons x xs ih => cases h : p x <;> simp [h, ih]

theorem sum_map_zero {α : Type} (xs : List α) : (xs.map fun _ => 0).sum = 0 := by
  induction xs with
  | nil => rfl
  | cons x xs ih => rw [List.map_cons, List.sum_cons, ih]

theorem sum_map_add {α : Type} (f g : α → Nat) (xs : List α) :
    (xs.map fun x => f x + g x).sum = (xs.map f).sum + (xs.map g).sum := by
  induction xs with
  | nil => rfl
  | cons x xs ih =>
    simp only [List.map_cons, List.sum_cons, ih]
    omega

/-- At a scaled level whose proportional demand is above the flow, each grant is a floor of its share. -/
theorem sum_flowFrom_mul_le {r share : Nat} (h : r < share) (os : List Offer) :
    (os.map fun o => flowFrom o (.scaled r share)).sum * share ≤ demandSum (proportionals os) * r := by
  induction os with
  | nil => simp
  | cons o os ih =>
    cases ht : o.type with
    | switched => simpa [proportionals, ht, flowFrom] using ih
    | proportional =>
      have hfloor : o.demand * r / share * share ≤ o.demand * r := Nat.div_mul_le_self _ _
      simp [proportionals, demandSum, ht, flowFrom, Nat.not_le.2 h, Nat.add_mul] at ih ⊢
      omega

theorem sum_flowFrom_le_proportional {r share : Nat} (h : share ≤ r) (os : List Offer) :
    (os.map fun o => flowFrom o (.scaled r share)).sum = demandSum (proportionals os) := by
  induction os with
  | nil => rfl
  | cons o os ih =>
    cases ht : o.type <;> simp [proportionals, demandSum, ht, flowFrom, h] at ih ⊢ <;> exact ih

theorem sum_flowFrom_scaled_le (r : Nat) (os : List Offer) :
    (os.map fun o => flowFrom o (.scaled r (demandSum (proportionals os)))).sum ≤ r := by
  rcases Nat.lt_or_ge r (demandSum (proportionals os)) with h | h
  · have hmul := sum_flowFrom_mul_le h os
    rw [Nat.mul_comm (demandSum _)] at hmul
    exact Nat.le_of_mul_le_mul_right hmul (by omega)
  · rw [sum_flowFrom_le_proportional h]
    exact h

/-- The flow of an offer whose level is k or above, under plans that begin with level k. -/
def flowAbove (a k : Nat) (plans : List LevelPlan) (o : Offer) : Nat :=
  if (o.admitted a && decide (k ≤ o.level)) = true then flowFrom o (plans.getD (o.level - k) .starved) else 0

theorem flowAbove_cons (a k : Nat) (p : LevelPlan) (plans : List LevelPlan) (o : Offer) :
    flowAbove a k (p :: plans) o =
      (if (o.admitted a && o.level == k) = true then flowFrom o p else 0) + flowAbove a (k + 1) plans o := by
  unfold flowAbove
  rcases Nat.lt_trichotomy o.level k with h | h | h
  · simp [Nat.not_le.2 h, Nat.ne_of_lt h, show ¬ k + 1 ≤ o.level by omega]
  · simp [h, show ¬ k + 1 ≤ k by omega]
  · obtain ⟨j, hj⟩ : ∃ j, o.level = k + 1 + j := ⟨o.level - (k + 1), by omega⟩
    simp [hj, show k + 1 + j - k = j + 1 by omega, show k ≤ k + 1 + j by omega, show k + 1 + j ≠ k by omega]

theorem flowAbove_starved (a k n : Nat) : flowAbove a k (List.replicate n .starved) = fun _ => 0 := by
  funext o
  have hstarved : (List.replicate n LevelPlan.starved).getD (o.level - k) .starved = .starved := by
    rw [List.getD_eq_getElem?_getD, List.getElem?_replicate]
    split <;> rfl
  simp only [flowAbove, hstarved, flowFrom, ite_self]

/-- Each level takes no more than the levels before it leave. -/
theorem sum_flowAbove_le (a : Nat) (os : List Offer) (k n r : Nat) :
    (os.map (flowAbove a k (planLevels a os (List.range' k n) r))).sum ≤ r := by
  induction n generalizing k r with
  | zero =>
    have hnone : flowAbove a k [] = fun _ => 0 := flowAbove_starved a k 0
    rw [List.range'_zero, planLevels, hnone, sum_map_zero]
    exact Nat.zero_le r
  | succ n ih =>
    have hsplit : ∀ p plans, (os.map (flowAbove a k (p :: plans))).sum =
        ((atLevel a os k).map fun o => flowFrom o p).sum + (os.map (flowAbove a (k + 1) plans)).sum := by
      intro p plans
      rw [atLevel, ← sum_map_ite_zero, ← sum_map_add]
      simp only [← flowAbove_cons]
    rw [List.range'_succ]
    rcases Nat.lt_or_ge r (demandSum (atLevel a os k)) with hlt | hle
    · rw [planLevels_cons_of_lt _ hlt, hsplit]
      rw [flowAbove_starved, sum_map_zero, Nat.add_zero]
      exact sum_flowFrom_scaled_le r (atLevel a os k)
    · rw [planLevels_cons_of_le _ hle, hsplit]
      have hrest := ih (k + 1) (r - demandSum (atLevel a os k))
      have hfull : ((atLevel a os k).map fun o => flowFrom o .full).sum = demandSum (atLevel a os k) := rfl
      omega

theorem sum_grant_le (a : Nat) (os : List Offer) (r : Nat) :
    (os.map fun o => (o.grant a (planLevels a os servedLevels r)).1).sum ≤ r := by
  have hgrant : (fun o : Offer => (o.grant a (planLevels a os servedLevels r)).1) =
      flowAbove a 0 (planLevels a os (List.range' 0 7) r) := by
    funext o
    simp [Offer.grant_flow, flowAbove, servedLevels, List.range_eq_range']
  rw [hgrant]
  exact sum_flowAbove_le a os 0 7 r

end Sys2Proof.Machine.JetChannels
end

section
/-! SUPPORT. What a manifold update reads: the flow of the pumps and the standing effects of the reactions (R104, R107,
R108, R173). -/

namespace Sys2Proof.Machine.JetChannels

/-! ### The pumps' flow (R104, R108) -/

theorem Pump.flow_eq (p : Pump) : p.flow = if p.live.state = .faulted ∨ p.live.state = .locked then 0
    else p.cfg.ratedFlow * p.live.actual / 1000 := by
  unfold Pump.flow
  cases p.live.state <;> simp

theorem State.availableFlow_eq (s : State) (m : Manifold) :
    s.availableFlow m = ((List.finRange 8).map fun p =>
      let x := s.water.pumps.get p
      if x.cfg.manifold = m ∧ x.live.state ≠ .faulted ∧ x.live.state ≠ .locked then
        x.cfg.ratedFlow * x.live.actual / 1000
      else 0).sum := by
  rw [State.availableFlow, ← sum_map_ite_zero, Table.cells_eq_map_get, List.map_map]
  congr 2
  funext p
  by_cases hm : (s.water.pumps.get p).cfg.manifold = m
  · simp [hm, Pump.flow_eq, ← not_or, ite_not]
  · simp [hm]

/-! ### Standing effects (R107, R173) -/

theorem le_lowest_iff {n top : Nat} {xs : List Nat} : n ≤ lowest top xs ↔ n ≤ top ∧ ∀ x ∈ xs, n ≤ x := by
  unfold lowest
  induction xs generalizing top with
  | nil => simp
  | cons x xs ih => simp only [List.foldl_cons, ih, Nat.le_min, List.forall_mem_cons, and_assoc]

theorem lowest_eq_or_mem (top : Nat) (xs : List Nat) : lowest top xs = top ∨ lowest top xs ∈ xs := by
  unfold lowest
  induction xs generalizing top with
  | nil => simp
  | cons x xs ih =>
    rw [List.foldl_cons]
    rcases ih (min top x) with h | h
    · rcases Nat.le_total top x with hle | hle
      · exact .inl (by rw [h, Nat.min_eq_left hle])
      · exact .inr (by rw [h, Nat.min_eq_right hle]; exact List.mem_cons_self)
    · exact .inr (List.mem_cons_of_mem x h)

theorem State.mem_activeKinds {s : State} {k : ReactionKind} :
    k ∈ s.activeKinds ↔ ∃ r ∈ s.trip.reactions.cells, s.isActive r = true ∧ r.cfg.kind = k := by
  simp [State.activeKinds, and_assoc]

theorem ReactionKind.admits_eq_some {k : ReactionKind} {m : Manifold} {l : Nat} :
    k.admits m = some l ↔ k = .admitLimit m l := by
  cases k <;> simp [ReactionKind.admits]

/-- The levels among which the admit level is the lowest (R107). -/
theorem State.mem_admits {s : State} {m : Manifold} {l : Nat} : l ∈ s.activeKinds.filterMap (·.admits m) ↔
    ∃ r ∈ s.trip.reactions.cells, s.isActive r = true ∧ r.cfg.kind = .admitLimit m l := by
  simp [List.mem_filterMap, ReactionKind.admits_eq_some, State.mem_activeKinds]

theorem State.admitLevel_le (s : State) (m : Manifold) : s.admitLevel m ≤ 7 := (le_lowest_iff.1 (Nat.le_refl _)).1

theorem State.admitLevel_le_limit {s : State} {m : Manifold} {r : Reaction} (hr : r ∈ s.trip.reactions.cells)
    (ha : s.isActive r = true) {l : Nat} (hk : r.cfg.kind = .admitLimit m l) : s.admitLevel m ≤ l :=
  (le_lowest_iff.1 (Nat.le_refl _)).2 l (State.mem_admits.2 ⟨r, hr, ha, hk⟩)

theorem State.admitLevel_cases (s : State) (m : Manifold) : s.admitLevel m = 7 ∨
    ∃ r ∈ s.trip.reactions.cells, s.isActive r = true ∧ r.cfg.kind = .admitLimit m (s.admitLevel m) :=
  (lowest_eq_or_mem 7 _).imp_right State.mem_admits.1

theorem State.zoneOccupied_iff (s : State) (z : Nat) : s.zoneOccupied z = true ↔
    ∃ r ∈ s.trip.reactions.cells, s.isActive r = true ∧ ∃ y, r.cfg.kind = .zoneHold y ∧ y.val = z := by
  simp only [State.zoneOccupied, List.any_eq_true, State.mem_activeKinds]
  constructor
  · rintro ⟨k, ⟨r, hr, ha, rfl⟩, hz⟩
    refine ⟨r, hr, ha, ?_⟩
    split at hz
    · next y hk => exact ⟨y, hk, by simpa using hz⟩
    · cases hz
  · rintro ⟨r, hr, ha, y, hk, hy⟩
    exact ⟨.zoneHold y, ⟨r, hr, ha, hk⟩, by simp [hy]⟩

end Sys2Proof.Machine.JetChannels
end

section
/-! SUPPORT. The manifold update by its parts (R76, R106): the judged channels, their offers and plans, what each
channel takes, and the manifold's record. -/

namespace Sys2Proof.Machine.JetChannels

/-! ### The parts of an update -/

/-- The usable flow: the available flow less the reserve (R108). -/
def usableFlow (s : State) (m : Manifold) : Nat :=
  s.availableFlow m - (s.water.manifolds.get (manifoldNum m)).reserve

/-- A channel as stage 1 of its manifold's update judges it (R76). -/
def judgedChannel (s : State) (x : Channel) : Channel :=
  x.judge s.clock.plantTime (s.wind.zones.get x.cfg.zone).applied (s.zoneOccupied x.cfg.zone.val)
    (decide (s.out.mode = .safe))

/-- The offers that stage 2 hands over (R76). -/
def offers (s : State) (m : Manifold) : List Offer := offersOf m (s.judgedChannels m)

/-- The plans of the levels (R109). -/
def plans (s : State) (m : Manifold) : List LevelPlan :=
  planLevels (s.admitLevel m) (offers s m) servedLevels (usableFlow s m)

/-- A judged channel with its grant (R76, stage 3). -/
def servedChannel (s : State) (m : Manifold) (y : Channel) : Channel :=
  y.take (y.offer.grant (s.admitLevel m) (plans s m)).1 (y.offer.grant (s.admitLevel m) (plans s m)).2

/-- The channels after the update. -/
def servedChannels (s : State) (m : Manifold) : Table Channel 48 :=
  (s.judgedChannels m).map fun y => if y.cfg.manifold = m then servedChannel s m y else y

/-- The manifold's record after the update (R110). -/
def servedRecord (s : State) (m : Manifold) : ManifoldRec :=
  { s.water.manifolds.get (manifoldNum m) with
    summary := summaryOf (s.admitLevel m) (s.availableFlow m) (usableFlow s m) (offers s m) (plans s m),
    lastUpdate := s.clock.plantTime,
    nextUpdate := (s.water.manifolds.get (manifoldNum m)).nextUpdate + 10 }

/-- The state after the update. -/
def updated (s : State) (m : Manifold) : State :=
  { s with
    jets := { s.jets with channels := servedChannels s m },
    water := { s.water with manifolds := s.water.manifolds.set (manifoldNum m) (servedRecord s m) },
    link := s.link.choose }

theorem exec_manifoldUpdate_due {s : State} {m : Manifold} (hp : s.phase = .running)
    (hdue : (s.clock.plantTime - (s.water.manifolds.get (manifoldNum m)).nextUpdate).toNat < 2 ^ 31) :
    exec (.manifoldUpdate m) s = .next (updated s m) := by
  have hreached : reached s.transmit.now (s.transmit.water.manifolds.get (manifoldNum m)).nextUpdate = true :=
    decide_eq_true hdue
  have hupdate : updateManifold m s.transmit = updated s m := by
    simp only [updateManifold, hreached, if_true]
    rfl
  have hchosen : (updated s m).transmit = updated s m := by simp [State.transmit, updated]
  calc exec (.manifoldUpdate m) s = .next (updateManifold m s.transmit).transmit := happens_of_running hp _
    _ = .next (updated s m) := by rw [hupdate, hchosen]

theorem exec_manifoldUpdate_early {s : State} {m : Manifold} (hp : s.phase = .running)
    (hearly : 2 ^ 31 ≤ (s.clock.plantTime - (s.water.manifolds.get (manifoldNum m)).nextUpdate).toNat) :
    exec (.manifoldUpdate m) s = .next (s.passed []) := by
  have hreached : reached s.transmit.now (s.transmit.water.manifolds.get (manifoldNum m)).nextUpdate = false :=
    decide_eq_false (Nat.not_lt.2 hearly)
  have hidle : updateManifold m s.transmit = s.transmit := by
    simp only [updateManifold, hreached, Bool.false_eq_true, if_false]
  calc exec (.manifoldUpdate m) s = .next (updateManifold m s.transmit).transmit := happens_of_running hp _
    _ = .next (s.passed []) := by rw [hidle]; rfl

/-! ### Channels and offers after an update -/

theorem judgedChannels_get (s : State) (m : Manifold) (c : Fin 48) : (s.judgedChannels m).get c =
    if (s.jets.channels.get c).cfg.manifold = m then judgedChannel s (s.jets.channels.get c)
    else s.jets.channels.get c := by
  rw [State.judgedChannels, Table.get_map]
  rfl

theorem judgedChannels_manifold (s : State) (m : Manifold) (c : Fin 48) :
    ((s.judgedChannels m).get c).cfg.manifold = (s.jets.channels.get c).cfg.manifold := by
  rw [judgedChannels_get]
  split <;> rfl

section
variable {s : State} {m : Manifold} {c : Fin 48}

theorem servedChannels_get_own (h : (s.jets.channels.get c).cfg.manifold = m) :
    (servedChannels s m).get c = servedChannel s m (judgedChannel s (s.jets.channels.get c)) := by
  rw [servedChannels, Table.get_map, judgedChannels_manifold, judgedChannels_get]
  simp only [h, if_true]

theorem servedChannels_get_other (h : (s.jets.channels.get c).cfg.manifold ≠ m) :
    (servedChannels s m).get c = s.jets.channels.get c := by
  rw [servedChannels, Table.get_map, judgedChannels_manifold, judgedChannels_get]
  simp only [h, if_false]

theorem servedChannels_manifold :
    ((servedChannels s m).get c).cfg.manifold = (s.jets.channels.get c).cfg.manifold := by
  by_cases h : (s.jets.channels.get c).cfg.manifold = m
  · rw [servedChannels_get_own h]
    rfl
  · rw [servedChannels_get_other h]

end

/-- The numbers of a manifold's channels. -/
def channelsOf (s : State) (m : Manifold) : List (Fin 48) :=
  (List.finRange 48).filter fun c => decide ((s.jets.channels.get c).cfg.manifold = m)

theorem mem_channelsOf {s : State} {m : Manifold} {c : Fin 48} :
    c ∈ channelsOf s m ↔ (s.jets.channels.get c).cfg.manifold = m := by
  simp [channelsOf]

theorem offers_eq (s : State) (m : Manifold) :
    offers s m = (channelsOf s m).map fun c => (judgedChannel s (s.jets.channels.get c)).offer := by
  rw [offers, offersOf, Table.cells_eq_map_get, List.filter_map, List.map_map]
  simp only [Function.comp_def, judgedChannels_manifold]
  refine List.map_congr_left fun c hc => ?_
  rw [judgedChannels_get, if_pos (mem_channelsOf.1 hc)]

theorem updated_grantedTo (s : State) (m : Manifold) : (updated s m).grantedTo m =
    ((offers s m).map fun o => (o.grant (s.admitLevel m) (plans s m)).1).sum := by
  have htable : (updated s m).jets.channels = servedChannels s m := rfl
  rw [State.grantedTo, htable, offers_eq, Table.cells_eq_map_get, List.filter_map, List.map_map, List.map_map]
  simp only [Function.comp_def, servedChannels_manifold]
  congr 1
  refine List.map_congr_left fun c hc => ?_
  rw [servedChannels_get_own (mem_channelsOf.1 hc)]
  rfl

theorem grants_le_usable (s : State) (m : Manifold) :
    ((offers s m).map fun o => (o.grant (s.admitLevel m) (plans s m)).1).sum ≤ usableFlow s m :=
  sum_grant_le _ _ _

theorem updated_record (s : State) (m : Manifold) :
    (updated s m).water.manifolds.get (manifoldNum m) = servedRecord s m := by
  simp [updated]

/-- Settles O37: the update's grants are the allocation's, whose sum `sum_grant_le` bounds; each channel's clause is its
offer's. -/
theorem grantsWithinUsableFlow : Obligations.GrantsWithinUsableFlow := by
  refine ⟨Pump.flow_eq, fun s m => ⟨State.availableFlow_eq s m, State.admitLevel_le s m,
    fun r hr ha l hk => State.admitLevel_le_limit hr ha hk, State.admitLevel_cases s m⟩, fun s m hp hdue => ?_⟩
  refine ⟨updated s m, exec_manifoldUpdate_due hp hdue, ?_, ?_, fun c hc => ?_⟩
  · rw [updated_grantedTo]
    exact grants_le_usable s m
  · rw [updated_grantedTo, updated_record]
    rfl
  · have hown : (s.jets.channels.get c).cfg.manifold = m := servedChannels_manifold.symm.trans hc
    have hserved : (updated s m).jets.channels.get c = servedChannel s m (judgedChannel s (s.jets.channels.get c)) :=
      servedChannels_get_own hown
    rw [hserved]
    refine ⟨Offer.grant_le_demand _ _ _, fun hheld => ?_, fun hfree hdemand hout => ?_⟩
    · have hgrant := Offer.grant_held (o := (judgedChannel s (s.jets.channels.get c)).offer) hheld (s.admitLevel m)
        (plans s m)
      exact Prod.mk.inj hgrant
    · have hgrant := Offer.grant_excluded (o := (judgedChannel s (s.jets.channels.get c)).offer) hfree hdemand hout
        (plans s m)
      exact Prod.mk.inj hgrant

end Sys2Proof.Machine.JetChannels
end

section
/-! SUPPORT. What a manifold update leaves in the channels and in the manifold's record (R77, R79, R82, R83, R110). -/

namespace Sys2Proof.Machine.JetChannels

/-! ### The summary (R110) -/

section
variable (s : State) (m : Manifold)

theorem servedRecord_granted :
    (servedRecord s m).summary.granted + (servedRecord s m).summary.unallocated = (servedRecord s m).summary.usable :=
  Nat.add_sub_cancel' (grants_le_usable s m)

/-- The demand of the levels before a level. -/
def demandBefore (l : Nat) : Nat :=
  ((List.range l).map fun k => demandSum (atLevel (s.admitLevel m) (offers s m) k)).sum

theorem plans_getElem? (l : Fin 7) : (plans s m)[l.val]? =
    some (planGiven (usableFlow s m) (demandBefore s m l.val) (demandSum (atLevel (s.admitLevel m) (offers s m) l.val))
      (demandSum (proportionals (atLevel (s.admitLevel m) (offers s m) l.val)))) := by
  have h := planLevels_getElem? (a := s.admitLevel m) (os := offers s m) (ls := servedLevels) (i := l.val)
    (by simp [servedLevels]) (usableFlow s m)
  simpa [plans, demandBefore, servedLevels, List.take_range, Nat.min_eq_left (Nat.le_of_lt l.isLt)] using h

/-- A level's line of the summary, by what the levels before it demand. -/
theorem servedRecord_level (l : Fin 7) : (servedRecord s m).summary.levels[l.val]? =
    some { demand := demandSum (atLevel (s.admitLevel m) (offers s m) l.val),
           outcome :=
             if atLevel (s.admitLevel m) (offers s m) l.val = [] then .empty
             else if demandBefore s m l.val + demandSum (atLevel (s.admitLevel m) (offers s m) l.val) ≤ usableFlow s m
             then .full
             else if demandBefore s m l.val ≤ usableFlow s m then .scaled
             else .starved } := by
  have hline : (servedRecord s m).summary.levels[l.val]? =
      some (summarize (atLevel (s.admitLevel m) (offers s m) l.val) ((plans s m).getD l.val .starved)) := by
    simp [servedRecord, summaryOf, servedLevels]
  rw [hline, List.getD_eq_getElem?_getD, plans_getElem? s m l, Option.getD_some]
  simp only [summarize, List.isEmpty_iff]
  congr 2
  by_cases hfull : demandBefore s m l.val + demandSum (atLevel (s.admitLevel m) (offers s m) l.val) ≤ usableFlow s m
  · simp only [planGiven, hfull, if_true]
  · by_cases hscaled : demandBefore s m l.val ≤ usableFlow s m
    · simp only [planGiven, hfull, hscaled, if_true, if_false]
    · simp only [planGiven, hfull, hscaled, if_false]

theorem servedRecord_scaled_iff (l : Fin 7) : (servedRecord s m).summary.scaled = some l.val ↔
    demandBefore s m l.val ≤ usableFlow s m ∧
      usableFlow s m < demandBefore s m l.val + demandSum (atLevel (s.admitLevel m) (offers s m) l.val) := by
  have h := planLevels_scaled_iff (a := s.admitLevel m) (os := offers s m) (ls := servedLevels) (i := l.val)
    (r := usableFlow s m)
  simpa [servedRecord, summaryOf, plans, demandBefore, servedLevels, List.take_range, Nat.min_eq_left (Nat.le_of_lt l.isLt)] using h

theorem servedRecord_unscaled_iff :
    (servedRecord s m).summary.scaled = none ↔ demandBefore s m 7 ≤ usableFlow s m :=
  planLevels_unscaled_iff

end

/-! ### The channels (R76 to R83) -/

theorem Channel.take_switched {y : Channel} (h : y.cfg.type = .switched) (grant : Nat) (status : GrantStatus) :
    (y.take grant status).live.opening = (y.take grant status).live.curveOpening ∧
      (y.take grant status).live.curveOpening = if grant = y.live.demand ∧ 0 < y.live.demand then 1000 else 0 := by
  simp [Channel.take, ChannelCfg.drive, ChannelCfg.openingFor, h]

theorem Channel.take_abortClose (y : Channel) (grant : Nat) (status : GrantStatus) :
    (y.take grant status).live.abortClose =
      (y.live.abortClose && decide ((y.take grant status).live.opening ≠ 0)) := by
  have hne : ∀ n : Nat, (n != 0) = decide (n ≠ 0) := fun n => by rw [Bool.eq_iff_iff]; simp
  exact congrArg (y.live.abortClose && ·) (hne _)

/-- Settles O39: the state after the update is `updated`; its channels are the judged ones with their grants, its
record the summary of the same allocation. -/
theorem manifoldUpdateTakesEffect : Obligations.ManifoldUpdateTakesEffect := by
  refine ⟨State.zoneOccupied_iff, fun s m hp => ⟨exec_manifoldUpdate_early hp, fun hdue => ?_⟩⟩
  refine ⟨updated s m, exec_manifoldUpdate_due hp hdue, rfl, ?_, ?_, ?_, ?_⟩
  · intro k hk
    simp [updated, Ne.symm hk]
  · rw [updated_record]
    exact ⟨rfl, rfl, rfl, rfl, rfl, rfl, servedRecord_granted s m⟩
  · intro r a u offer mine os before
    have hserved : ∀ c ∈ mine, (updated s m).jets.channels.get c =
        servedChannel s m (judgedChannel s (s.jets.channels.get c)) :=
      fun c hc => servedChannels_get_own (mem_channelsOf.1 hc)
    have hoffer : ∀ c ∈ mine, offer c = (judgedChannel s (s.jets.channels.get c)).offer := by
      intro c hc
      simp only [offer, hserved c hc]
      rfl
    have hos : os = offers s m := by
      rw [offers_eq]
      exact List.map_congr_left hoffer
    have hgrant : ∀ c ∈ mine,
        (((updated s m).jets.channels.get c).live.grant, ((updated s m).jets.channels.get c).live.status) =
          (offer c).grant a (plans s m) := by
      intro c hc
      rw [hserved c hc, hoffer c hc]
      rfl
    have hrecord : r = servedRecord s m := updated_record s m
    have hbefore : before = demandBefore s m := by
      simp only [before, hos]
      rfl
    rw [hrecord, hos, hbefore]
    refine ⟨hgrant, fun c hc hfree hdemand => ?_, fun l => ⟨servedRecord_level s m l, servedRecord_scaled_iff s m l⟩,
      servedRecord_unscaled_iff s m⟩
    have hidle := hgrant c hc
    rw [Offer.grant_idle hfree hdemand] at hidle
    exact Prod.mk.inj hidle
  · intro c
    refine ⟨servedChannels_get_other, ?_⟩
    intro hown x y
    obtain ⟨grant, status, hy⟩ : ∃ grant status, y = (judgedChannel s x).take grant status :=
      ⟨_, _, servedChannels_get_own hown⟩
    rw [hy]
    exact ⟨rfl, rfl, rfl, rfl, rfl, rfl, rfl, rfl,
      fun hsw => Channel.take_switched (y := judgedChannel s x) hsw grant status, rfl,
      Channel.take_abortClose (judgedChannel s x) grant status⟩

end Sys2Proof.Machine.JetChannels
end

section
/-! SUPPORT. The once-effects of reactions leave the Wind Governor as it is (R165, R171). -/

namespace Sys2Proof.Machine.WindGovernor

theorem takeEach_wind {α : Type} {effect : α → State → State} (h : ∀ a s, (effect a s).wind = s.wind)
    (fuel : Nat) (as : List α) (s : State) : (takeEach effect fuel as s).wind = s.wind :=
  takeEach_keeps (P := fun t => t.wind = s.wind) (fun _ _ ht => ht) (fun a t ht => (h a t).trans ht) fuel as s rfl

theorem reactWith_wind {once : ReactionKind → State → State} (h : ∀ k s, (once k s).wind = s.wind)
    (before s : State) : (reactWith once before s).wind = s.wind := by
  unfold reactWith
  rw [takeEach_wind fun a t => h a.cfg.kind (t.tripNotice a)]
  rfl

theorem onceAtRest_wind (k : ReactionKind) (s : State) : (onceAtRest k s).wind = s.wind := by
  unfold onceAtRest
  split
  · rfl
  · split <;> rfl
  · rfl

theorem enterIdle_wind (s : State) : s.enterIdle.wind = s.wind := reactWith_wind onceAtRest_wind s s.stopRun

theorem abort_wind (s : State) (reason : EndReason) : (s.abort reason).wind = s.wind := by
  unfold State.abort
  split
  · rfl
  · exact enterIdle_wind _

theorem enterSafe_wind (s : State) : s.enterSafe.wind = s.wind := abort_wind s.modeSafe .safe

theorem pauseRun_wind (s : State) : s.pauseRun.wind = s.wind := by
  unfold State.pauseRun
  split <;> rfl

theorem onceEffect_wind (k : ReactionKind) (s : State) : (onceEffect k s).wind = s.wind := by
  unfold onceEffect
  split
  · rfl
  · exact pauseRun_wind s
  · exact abort_wind s .abortReaction
  · split
    · exact enterSafe_wind s
    · rfl
  · rfl

theorem reactFrom_wind (s before : State) : (s.reactFrom before).wind = s.wind :=
  reactWith_wind onceEffect_wind before s

end Sys2Proof.Machine.WindGovernor
end

section
/-! SUPPORT. The trim step (R120). -/

namespace Sys2Proof.Machine.WindGovernor

theorem ZoneTrim.step_eq (z : ZoneTrim) (c : ZoneCfg) : z.step c = { z with
    applied := if z.target < z.applied then max z.target (z.applied - c.drop)
      else if z.applied < z.target then min z.target (z.applied + c.recover) else z.applied } := by
  unfold ZoneTrim.step moveToward
  congr 1
  rcases Nat.lt_trichotomy z.applied z.target with hup | hsame | hdown
  · simp [hup, Nat.lt_asymm hup]
  · simp [hsame]
  · simp [hdown, Nat.lt_asymm hdown]

/-- The state after a trim step that is due. -/
def trimmed (s : State) : State :=
  { s with
    wind := { s.wind with
      zones := Table.zipWith (fun c z => z.step c) s.wind.cfg.zones s.wind.zones,
      nextTrim := s.wind.nextTrim + 100 },
    link := s.link.choose }

theorem exec_trimStep_early {s : State} (hp : s.phase = .running)
    (h : 2 ^ 31 ≤ (s.clock.plantTime - s.wind.nextTrim).toNat) : exec .trimStep s = .next (s.passed []) := by
  have hreached : reached s.transmit.now s.transmit.wind.nextTrim = false := decide_eq_false (Nat.not_lt.2 h)
  have hidle : stepTrims s.transmit = s.transmit := by
    simp only [stepTrims, hreached, Bool.false_eq_true, if_false]
  calc exec .trimStep s = .next (stepTrims s.transmit).transmit := happens_of_running hp _
    _ = .next (s.passed []) := by rw [hidle]; rfl

theorem exec_trimStep_due {s : State} (hp : s.phase = .running)
    (h : (s.clock.plantTime - s.wind.nextTrim).toNat < 2 ^ 31) : exec .trimStep s = .next (trimmed s) := by
  have hreached : reached s.transmit.now s.transmit.wind.nextTrim = true := decide_eq_true h
  have hstep : stepTrims s.transmit = trimmed s := by
    simp only [stepTrims, hreached, if_true]
    rfl
  have hchosen : (trimmed s).transmit = trimmed s := by simp [State.transmit, trimmed]
  calc exec .trimStep s = .next (stepTrims s.transmit).transmit := happens_of_running hp _
    _ = .next (trimmed s) := by rw [hstep, hchosen]

/-- Settles O46: the state after a due step is `trimmed`, whose zones each take one `ZoneTrim.step`. -/
theorem trimStepMoves : Obligations.TrimStepMoves := by
  intro s hp
  refine ⟨exec_trimStep_early hp, fun hdue => ⟨trimmed s, exec_trimStep_due hp hdue, rfl, fun z => ?_⟩⟩
  calc (trimmed s).wind.zones.get z = (s.wind.zones.get z).step (s.wind.cfg.zones.get z) :=
        Table.get_zipWith _ _ _ z
    _ = _ := ZoneTrim.step_eq _ _

end Sys2Proof.Machine.WindGovernor
end

section
/-! SUPPORT. The band: its highest threshold, what a change of it does, and how a gate's average judges it (R115, R116,
R119). -/

namespace Sys2Proof.Machine.WindGovernor

/-! ### The highest threshold reached (R115) -/

theorem foldl_max_succ_le_iff {m n : Nat} {xs : List Nat} :
    xs.foldl (fun m i => max m (i + 1)) m ≤ n ↔ m ≤ n ∧ ∀ i ∈ xs, i + 1 ≤ n := by
  induction xs generalizing m with
  | nil => simp
  | cons x xs ih => simp only [List.foldl_cons, ih, Nat.max_le, List.forall_mem_cons, and_assoc]

theorem foldl_max_succ_eq_or_mem (m : Nat) (xs : List Nat) :
    xs.foldl (fun m i => max m (i + 1)) m = m ∨ ∃ i ∈ xs, xs.foldl (fun m i => max m (i + 1)) m = i + 1 := by
  induction xs generalizing m with
  | nil => simp
  | cons x xs ih =>
    rw [List.foldl_cons]
    rcases ih (max m (x + 1)) with h | ⟨i, hi, h⟩
    · rcases Nat.le_total m (x + 1) with hle | hle
      · exact .inr ⟨x, List.mem_cons_self, by rw [h, Nat.max_eq_right hle]⟩
      · exact .inl (by rw [h, Nat.max_eq_left hle])
    · exact .inr ⟨i, List.mem_cons_of_mem x hi, h⟩

/-- The places of the thresholds that an average reaches, as `WindCfg.bandFor` lists them. -/
theorem mem_reachedThresholds {c : WindCfg} {a i : Nat} :
    i ∈ (List.range 7).filter (fun i => decide (c.threshold (i + 1) ≤ a)) ↔ i < 7 ∧ c.threshold (i + 1) ≤ a := by
  simp

theorem le_bandFor {c : WindCfg} {a b : Nat} (hb : b < 7) (h : c.threshold (b + 1) ≤ a) : b + 1 ≤ c.bandFor a :=
  (foldl_max_succ_le_iff.1 (Nat.le_refl (c.bandFor a))).2 b (mem_reachedThresholds.2 ⟨hb, h⟩)

theorem bandFor_cases (c : WindCfg) (a : Nat) :
    c.bandFor a = 0 ∨ c.bandFor a ≤ 7 ∧ c.threshold (c.bandFor a) ≤ a := by
  refine (foldl_max_succ_eq_or_mem 0 _).imp_right ?_
  rintro ⟨i, hi, h⟩
  obtain ⟨hi7, hreach⟩ := mem_reachedThresholds.1 hi
  have hband : c.bandFor a = i + 1 := h
  rw [hband]
  exact ⟨hi7, hreach⟩

/-- The threshold above the band that `bandFor` gives is not reached. -/
theorem lt_threshold_of_bandFor {c : WindCfg} {a : Nat} (h : c.bandFor a < 7) :
    a < c.threshold (c.bandFor a + 1) :=
  Nat.lt_of_not_le fun hreach => Nat.not_succ_le_self _ (le_bandFor h hreach)

/-! ### A change of band (R119) -/

theorem changeBand_eq (s : State) (cause : WindCause) (b : Nat) : s.changeBand cause b =
    ({ s with
      wind := s.wind.toBand b,
      link := s.link.tell (.wind cause s.wind.band b s.wind.lastAverage s.clock.plantTime) } : State).reactFrom s := rfl

@[simp] theorem changeBand_wind (s : State) (cause : WindCause) (b : Nat) :
    (s.changeBand cause b).wind = s.wind.toBand b := by
  rw [changeBand_eq, reactFrom_wind]

theorem changeBand_unused {s : State} (h : s.NoReactions) (cause : WindCause) (b : Nat) : s.changeBand cause b =
    { s with
      wind := s.wind.toBand b,
      link := s.link.tell (.wind cause s.wind.band b s.wind.lastAverage s.clock.plantTime) } := by
  rw [changeBand_eq]
  exact State.reactFrom_unused _ _ h

theorem toBand_zones_get (g : WindGov) (b : Nat) (z : Fin 4) : (g.toBand b).zones.get z =
    { g.zones.get z with target := (g.cfg.zones.get z).factors.getD b 256, sourceBand := b } :=
  Table.get_zipWith _ _ _ z

/-! ### The judgement of the band (R115, R116) -/

/-- The Governor's calm count set. -/
def withCalm (s : State) (n : Nat) : State := s.onWind (fun g => { g with calm := n })

theorem judgeBand_rise {s : State} (hb : s.wind.band < 7)
    (h : s.wind.cfg.threshold (s.wind.band + 1) ≤ s.wind.lastAverage) :
    s.judgeBand = (withCalm s 0).changeBand .rise (s.wind.cfg.bandFor s.wind.lastAverage) := by
  simp only [State.judgeBand, if_pos (And.intro hb h)]
  rfl

theorem judgeBand_of_no_rise {s : State}
    (h : ¬ (s.wind.band < 7 ∧ s.wind.cfg.threshold (s.wind.band + 1) ≤ s.wind.lastAverage)) :
    s.judgeBand = s.judgeFall := if_neg h

/-- Below a band by more than the hysteresis, the judgement counts a calm gate or takes the fall (R116). -/
theorem judgeBand_fall {s : State} (hb : 1 ≤ s.wind.band)
    (hrise : s.wind.band = 7 ∨ s.wind.lastAverage < s.wind.cfg.threshold (s.wind.band + 1))
    (hlow : s.wind.lastAverage + s.wind.cfg.hysteresis < s.wind.cfg.threshold s.wind.band) : s.judgeBand =
    if s.wind.calm + 1 = s.wind.cfg.calmHold then (withCalm s 0).changeBand .fall (s.wind.band - 1)
    else withCalm s (s.wind.calm + 1) := by
  rw [judgeBand_of_no_rise (by omega)]
  simp only [State.judgeFall, if_neg (Nat.ne_of_gt hb), if_pos hlow]
  rfl

theorem judgeBand_stands {s : State}
    (hrise : s.wind.band = 7 ∨ s.wind.lastAverage < s.wind.cfg.threshold (s.wind.band + 1))
    (hhigh : s.wind.band = 0 ∨ s.wind.cfg.threshold s.wind.band ≤ s.wind.lastAverage + s.wind.cfg.hysteresis) :
    s.judgeBand = withCalm s 0 := by
  rw [judgeBand_of_no_rise (by omega)]
  simp only [State.judgeFall]
  by_cases hb : s.wind.band = 0
  · simp only [if_pos hb]
    rfl
  · have hnotLow : ¬ s.wind.lastAverage + s.wind.cfg.hysteresis < s.wind.cfg.threshold s.wind.band := by omega
    simp only [if_neg hb, if_neg hnotLow]
    rfl

/-- The judgement sets the calm count, or it clears it and changes the band. -/
theorem judgeBand_cases (s : State) : (∃ n, s.judgeBand = withCalm s n) ∨
    ∃ cause b, s.judgeBand = (withCalm s 0).changeBand cause b := by
  by_cases hrise : s.wind.band < 7 ∧ s.wind.cfg.threshold (s.wind.band + 1) ≤ s.wind.lastAverage
  · exact .inr ⟨_, _, judgeBand_rise hrise.1 hrise.2⟩
  · rw [judgeBand_of_no_rise hrise]
    simp only [State.judgeFall]
    split
    · exact .inl ⟨0, rfl⟩
    · split
      · split
        · exact .inr ⟨_, _, rfl⟩
        · exact .inl ⟨_, rfl⟩
      · exact .inl ⟨0, rfl⟩

/-- What the judgement leaves of the Governor as it is. -/
theorem judgeBand_frame (s : State) :
    s.judgeBand.wind.cfg = s.wind.cfg ∧ s.judgeBand.wind.manualBand = s.wind.manualBand ∧
      s.judgeBand.wind.history = s.wind.history ∧ s.judgeBand.wind.lastAverage = s.wind.lastAverage ∧
      s.judgeBand.wind.nextTrim = s.wind.nextTrim := by
  rcases judgeBand_cases s with ⟨n, h⟩ | ⟨cause, b, h⟩
  · rw [h]
    exact ⟨rfl, rfl, rfl, rfl, rfl⟩
  · rw [h, changeBand_wind]
    exact ⟨rfl, rfl, rfl, rfl, rfl⟩

end Sys2Proof.Machine.WindGovernor
end

section
/-! SUPPORT. The gate end: the gate closed, the band judged in AUTOMATIC, the next gate opened (R113 to R117). -/

namespace Sys2Proof.Machine.WindGovernor

theorem automatic_iff (s : State) : s.automatic = true ↔ ∃ c ∈ s.trip.conditions.cells, c.cfg.role = .windPulse := by
  have hcells : (s.trip.conditions.map (·.cfg)).cells = s.trip.conditions.cells.map (·.cfg) := rfl
  rw [State.automatic, hasWindPulse_iff, hcells]
  constructor
  · rintro ⟨cfg, hcfg, hrole⟩
    obtain ⟨c, hc, rfl⟩ := List.mem_map.1 hcfg
    exact ⟨c, hc, hrole⟩
  · rintro ⟨c, hc, hrole⟩
    exact ⟨c.cfg, List.mem_map_of_mem hc, hrole⟩

/-! ### The parts of a gate end -/

/-- The state with its gate closed, once a free line has made its choice. -/
def closed (s : State) : State := { s with wind := s.wind.closeGate, link := s.link.choose }

/-- A state at the end of an event that opens the next gate at a plant time. -/
def opened (now : PlantTime) (u : State) : State := (u.onWind (·.openGate now)).transmit

/-- The closed state with its band judged, in AUTOMATIC. -/
def judged (s : State) : State := if s.automatic = true then (closed s).judgeBand else closed s

theorem judged_of_automatic {s : State} (h : ∃ c ∈ s.trip.conditions.cells, c.cfg.role = .windPulse) :
    judged s = (closed s).judgeBand := if_pos ((automatic_iff s).2 h)

theorem judged_of_manual {s : State} (h : ¬ ∃ c ∈ s.trip.conditions.cells, c.cfg.role = .windPulse) :
    judged s = closed s := if_neg (mt (automatic_iff s).1 h)

theorem judged_frame (s : State) :
    (judged s).wind.cfg = s.wind.cfg ∧ (judged s).wind.manualBand = s.wind.manualBand ∧
      (judged s).wind.history = s.wind.closeGate.history ∧
      (judged s).wind.lastAverage = s.wind.closeGate.lastAverage ∧
      (judged s).wind.nextTrim = s.wind.nextTrim := by
  by_cases h : ∃ c ∈ s.trip.conditions.cells, c.cfg.role = .windPulse
  · rw [judged_of_automatic h]
    exact judgeBand_frame (closed s)
  · rw [judged_of_manual h]
    exact ⟨rfl, rfl, rfl, rfl, rfl⟩

theorem exec_gateEnd_early {s : State} (hp : s.phase = .running)
    (h : elapsed s.wind.gateStart s.clock.plantTime < 1000) : exec .gateEnd s = .next (s.passed []) := by
  have hidle : endGate s.transmit = s.transmit := if_neg (Nat.not_le.2 h)
  calc exec .gateEnd s = .next (endGate s.transmit).transmit := happens_of_running hp _
    _ = .next (s.passed []) := by rw [hidle]; rfl

theorem exec_gateEnd_over {s : State} (hp : s.phase = .running)
    (h : 1000 ≤ elapsed s.wind.gateStart s.clock.plantTime) :
    exec .gateEnd s = .next (opened s.clock.plantTime (judged s)) := by
  have hend : endGate s.transmit = (judged s).onWind (·.openGate s.clock.plantTime) := if_pos h
  calc exec .gateEnd s = .next (endGate s.transmit).transmit := happens_of_running hp _
    _ = .next (opened s.clock.plantTime (judged s)) := by rw [hend]; rfl

/-! ### What the next gate's opening leaves -/

/-- A free line has made its choice already when the band stands. -/
theorem opened_closed (s : State) : opened s.clock.plantTime (closed s) =
    (closed s).onWind (·.openGate s.clock.plantTime) := by
  simp only [opened, closed, State.transmit, State.onWind, LinkPort.choose_choose]

theorem opened_changeBand_wind (now : PlantTime) (u : State) (cause : WindCause) (b : Nat) :
    (opened now (u.changeBand cause b)).wind = (u.wind.toBand b).openGate now :=
  congrArg (·.openGate now) (changeBand_wind u cause b)

/-- With no reaction in use a change of band at a gate end tells its WIND notice alone (R119, R195). -/
theorem opened_changeBand_link {s : State} (h : s.NoReactions) (cause : WindCause) (b : Nat) :
    (opened s.clock.plantTime ((withCalm (closed s) 0).changeBand cause b)).link =
      s.link.after [.wind cause s.wind.band b s.wind.closeGate.lastAverage s.clock.plantTime] := by
  have hnone : (withCalm (closed s) 0).NoReactions := h
  rw [changeBand_unused hnone]
  rfl

/-- Settles O45: the state after the gate is `opened` of `judged s`; each case of the band is a case of `judgeBand` on
the closed gate, and what a change leaves in the Governor is `toBand`, which no reaction touches. -/
theorem gateEndMeasures : Obligations.GateEndMeasures := by
  refine ⟨fun s cause b => ?_, fun s hp => ⟨exec_gateEnd_early hp, fun hover _ _ => ?_⟩⟩
  · intro t changed
    have hwind : t.wind = s.wind.toBand b := changeBand_wind s cause b
    have hchanged : t = changed.reactFrom s := by
      simp only [changed, hwind]
      exact changeBand_eq s cause b
    refine ⟨by rw [hwind]; rfl, fun z => ?_, hchanged, fun hnone => ?_⟩
    · rw [hwind]
      exact toBand_zones_get s.wind b z
    · rw [hchanged]
      exact State.reactFrom_unused _ _ hnone
  · intro speed a b automatic measured nextGate told
    obtain ⟨hcfg, hmanualBand, hhistory, haverage, htrim⟩ := judged_frame s
    refine ⟨opened s.clock.plantTime (judged s), exec_gateEnd_over hp hover, hhistory, haverage, rfl, rfl, hcfg,
      hmanualBand, htrim, ?_, ?_, ?_, ?_⟩
    · intro hmanual
      rw [judged_of_manual hmanual, opened_closed]
      rfl
    · intro hauto hb hreach
      have hrise : judged s = (withCalm (closed s) 0).changeBand .rise (s.wind.cfg.bandFor a) :=
        (judged_of_automatic hauto).trans (judgeBand_rise (s := closed s) hb hreach)
      have habove : b < s.wind.cfg.bandFor a := le_bandFor hb hreach
      obtain ⟨htop, hreached⟩ := (bandFor_cases s.wind.cfg a).resolve_left (by omega)
      rw [hrise]
      simp only [opened_changeBand_wind]
      exact ⟨rfl, habove, htop, hreached, lt_threshold_of_bandFor, rfl, rfl,
        fun hnone => opened_changeBand_link hnone _ _⟩
    · intro hauto hstay hpos hlow
      have hfall := (judged_of_automatic hauto).trans (judgeBand_fall (s := closed s) hpos hstay hlow)
      refine ⟨fun hcalm => ?_, fun hcalm => ?_⟩
      · rw [hfall.trans (if_pos hcalm)]
        simp only [opened_changeBand_wind]
        exact ⟨rfl, rfl, rfl, rfl, fun hnone => opened_changeBand_link hnone _ _⟩
      · rw [hfall.trans (if_neg hcalm)]
        exact ⟨rfl, rfl, rfl⟩
    · intro hauto hstay hhigh
      rw [(judged_of_automatic hauto).trans (judgeBand_stands (s := closed s) hstay hhigh)]
      exact ⟨rfl, rfl, rfl⟩

end Sys2Proof.Machine.WindGovernor
end

section
/-! SUPPORT. The configuration of fixtures, fixture groups and lighting (R123 to R126). -/

namespace Sys2Proof.Machine.Lighting
open JetChannels

/-! ### Operand forms (R123, R126) -/

theorem fixtureKindOf_eq (b : Byte) : fixtureKindOf b =
    if b.toNat ≤ 2 then some (if b = 0#8 then .basin else if b = 1#8 then .jet else .deck) else none := by
  revert b
  decide

theorem kind_eq_jet_iff (b : Byte) :
    (if b = 0#8 then FixtureKind.basin else if b = 1#8 then .jet else .deck) = .jet ↔ b = 1#8 := by
  revert b
  decide

theorem boundOf_channel {b : Byte} {c : Fin 48} (h : b.toNat = c.val) : boundOf b = some (some c) := by
  have hc := c.isLt
  rw [boundOf, if_neg (by omega), below_lt c h]
  rfl

theorem boundOf_beyond {b : Byte} (hnone : b ≠ 0xFF#8) (h : 48 ≤ b.toNat) : boundOf b = none := by
  have hset : b.toNat ≠ 0xFF := fun h255 => hnone (BitVec.eq_of_toNat_eq h255)
  rw [boundOf, if_neg hset, below_ge h]
  rfl

/-- Any channel byte but NONE names a channel where it is in range. -/
theorem boundOf_ne_none {b : Byte} (hnone : b ≠ 0xFF#8) : boundOf b ≠ some none := by
  rcases Nat.lt_or_ge b.toNat 48 with h | h
  · rw [boundOf_channel (c := ⟨b.toNat, h⟩) rfl]
    simp
  · rw [boundOf_beyond hnone h]
    simp

theorem fixtureCfgOf_out_of_range {a : FixtureArgs} (h : 509 < a.base.toNat ∨ 500 < a.lead.toNat ∨ 2 < a.kind.toNat ∨
    (a.bound ≠ 0xFF#8 ∧ (48 ≤ a.bound.toNat ∨ a.kind ≠ 1#8))) : fixtureCfgOf a = none := by
  unfold fixtureCfgOf
  rw [fixtureKindOf_eq]
  by_cases hkind : a.kind.toNat ≤ 2
  · cases hbound : boundOf a.bound with
    | none => simp [hkind]
    | some bound =>
      have hbad : ¬ (a.base.toNat ≤ 509 ∧ a.lead.toNat ≤ 500 ∧ (a.kind = 1#8 ∨ bound = none)) := by
        rintro ⟨hbase, hlead, hjet⟩
        obtain ⟨hset, hchannel | hother⟩ :=
          ((h.resolve_left (Nat.not_lt.2 hbase)).resolve_left (Nat.not_lt.2 hlead)).resolve_left (Nat.not_lt.2 hkind)
        · simp [boundOf_beyond hset hchannel] at hbound
        · exact boundOf_ne_none hset (hjet.resolve_left hother ▸ hbound)
      simp [hkind, kind_eq_jet_iff, hbad]
  · simp [hkind]

/-- A bound channel in range and the byte that carries it: NONE on every kind, a channel on JET alone (R123). -/
def BoundCarried (a : FixtureArgs) (bound : Option (Fin 48)) : Prop :=
  a.bound = 0xFF#8 ∧ bound = none ∨ ∃ c : Fin 48, a.kind = 1#8 ∧ a.bound.toNat = c.val ∧ bound = some c

theorem BoundCarried.boundOf {a : FixtureArgs} {bound : Option (Fin 48)} (h : BoundCarried a bound) :
    boundOf a.bound = some bound := by
  rcases h with ⟨hnone, rfl⟩ | ⟨c, -, hc, rfl⟩
  · rw [hnone]
    rfl
  · exact boundOf_channel hc

theorem fixtureCfgOf_in_range {a : FixtureArgs} {bound : Option (Fin 48)} (hbase : a.base.toNat ≤ 509)
    (hlead : a.lead.toNat ≤ 500) (hkind : a.kind.toNat ≤ 2) (hbound : BoundCarried a bound) :
    fixtureCfgOf a = some
      { base := a.base.toNat, kind := if a.kind = 0#8 then .basin else if a.kind = 1#8 then .jet else .deck,
        bound := bound, lead := a.lead.toNat } := by
  have hjet : a.kind = 1#8 ∨ bound = none :=
    hbound.elim (fun hnone => .inr hnone.2) fun ⟨_, hkind, _⟩ => .inl hkind
  unfold fixtureCfgOf
  rw [fixtureKindOf_eq, if_pos hkind, hbound.boundOf]
  simp [hbase, hlead, kind_eq_jet_iff, hjet]

/-! ### Shared slots (R124) -/

/-- The lowest place that a table of marks marks. -/
theorem findIdx?_lowest {n : Nat} {t : Table Bool n} {i : Fin n} (h : t.get i = true)
    (hlow : ∀ j : Fin n, j.val < i.val → t.get j = false) : t.cells.findIdx? id = some i.val := by
  rw [List.findIdx?_eq_some_iff_getElem]
  refine ⟨by rw [t.size]; exact i.isLt, h, fun j hj => ?_⟩
  have hclear : t.get ⟨j, Nat.lt_trans hj i.isLt⟩ = false := hlow ⟨j, Nat.lt_trans hj i.isLt⟩ hj
  simpa [Table.get] using hclear

theorem findIdx?_unmarked {n : Nat} {t : Table Bool n} (h : ∀ i, t.get i = false) : t.cells.findIdx? id = none := by
  rw [List.findIdx?_eq_none_iff]
  intro b hb
  obtain ⟨i, rfl⟩ := Table.mem_cells.1 hb
  exact h i

theorem basesOverlap_iff {a b : Nat} : basesOverlap a b = true ↔ a ≠ 0 ∧ b ≠ 0 ∧ a < b + 4 ∧ b < a + 4 := by
  simp [basesOverlap, and_assoc]

/-- Another fixture y than x shares a slot with a base slot for x (R124). -/
def SharesSlot (s : State) (x : Fin 96) (base : Nat) (y : Fin 96) : Prop :=
  y ≠ x ∧ base ≠ 0 ∧ (s.light.fixtures.get y).cfg.base ≠ 0 ∧
    base < (s.light.fixtures.get y).cfg.base + 4 ∧ (s.light.fixtures.get y).cfg.base < base + 4

/-- The marks of the fixtures that share a slot, which `State.overlapping` searches. -/
def sharing (s : State) (x : Fin 96) (base : Nat) : Table Bool 96 :=
  s.light.fixtures.mapIdx fun i f => i != x.val && basesOverlap base f.cfg.base

theorem sharing_get {s : State} {x : Fin 96} {base : Nat} {y : Fin 96} :
    (sharing s x base).get y = true ↔ SharesSlot s x base y := by
  simp [sharing, SharesSlot, basesOverlap_iff, Fin.ext_iff]

theorem sharing_get_false {s : State} {x : Fin 96} {base : Nat} {y : Fin 96} (h : ¬ SharesSlot s x base y) :
    (sharing s x base).get y = false := Bool.eq_false_iff.2 (mt sharing_get.1 h)

theorem overlapping_lowest {s : State} {x : Fin 96} {base : Nat} {y : Fin 96} (h : SharesSlot s x base y)
    (hlow : ∀ z : Fin 96, z.val < y.val → ¬ SharesSlot s x base z) : s.overlapping x.val base = some y.val :=
  findIdx?_lowest (t := sharing s x base) (sharing_get.2 h) fun z hz => sharing_get_false (hlow z hz)

theorem overlapping_none {s : State} {x : Fin 96} {base : Nat} (h : ∀ y, ¬ SharesSlot s x base y) :
    s.overlapping x.val base = none :=
  findIdx?_unmarked (t := sharing s x base) fun y => sharing_get_false (h y)

/-! ### The three requests, case by case (R124 to R126) -/

theorem exec_fixtureConfig (tag : Byte) (a : FixtureArgs) (s : State) :
    exec (.fixtureConfig tag a) s = request 0x38#8 tag (configureFixture tag a) s := rfl

theorem exec_fixtureGroupConfig (tag : Byte) (a : FixtureGroupArgs) (s : State) :
    exec (.fixtureGroupConfig tag a) s = request 0x39#8 tag (configureFixtureGroup tag a) s := rfl

theorem exec_lightingConfig (tag : Byte) (a : LightingArgs) (s : State) :
    exec (.lightingConfig tag a) s = request 0x3A#8 tag (configureLighting tag a) s := rfl

section
variable {s : State} {tag : Byte}

theorem configureFixture_live {a : FixtureArgs} (h : s.out.mode = .live) :
    configureFixture tag a s = s.refuse 0x38#8 tag .notSafe := by
  simp [configureFixture, (State.live_iff s).2 h]

theorem configureFixture_badArgument {a : FixtureArgs} (h : s.out.mode = .safe)
    (hbad : 96 ≤ a.fixture.toNat ∨ fixtureCfgOf a = none) :
    configureFixture tag a s = s.refuse 0x38#8 tag .badArgument := by
  rcases hbad with hx | hcfg
  · simp [configureFixture, State.live_eq_false h, below_ge hx]
  · cases hb : below 96 a.fixture <;> simp [configureFixture, State.live_eq_false h, hcfg, hb]

theorem configureFixture_overlap {a : FixtureArgs} (h : s.out.mode = .safe) {x : Fin 96}
    (hx : a.fixture.toNat = x.val) {cfg : FixtureCfg} (hcfg : fixtureCfgOf a = some cfg) {y : Nat}
    (hy : s.overlapping x.val cfg.base = some y) :
    configureFixture tag a s = s.answer 0x38#8 tag .slotOverlap (u8 y) := by
  simp [configureFixture, State.live_eq_false h, below_lt x hx, hcfg, hy]

theorem configureFixture_taken {a : FixtureArgs} (h : s.out.mode = .safe) {x : Fin 96}
    (hx : a.fixture.toNat = x.val) {cfg : FixtureCfg} (hcfg : fixtureCfgOf a = some cfg)
    (hfree : s.overlapping x.val cfg.base = none) :
    configureFixture tag a s =
      ({ s with light := { s.light with
          fixtures := s.light.fixtures.modify x (fun f => { f with cfg := cfg }) } }).ok 0x38#8 tag := by
  simp [configureFixture, State.live_eq_false h, below_lt x hx, hcfg, hfree]

theorem configureFixtureGroup_live {a : FixtureGroupArgs} (h : s.out.mode = .live) :
    configureFixtureGroup tag a s = s.refuse 0x39#8 tag .notSafe := by
  simp [configureFixtureGroup, (State.live_iff s).2 h]

theorem configureFixtureGroup_badArgument {a : FixtureGroupArgs} (h : s.out.mode = .safe)
    (hbad : 16 ≤ a.group.toNat ∨ 500 < a.lead.toNat) :
    configureFixtureGroup tag a s = s.refuse 0x39#8 tag .badArgument := by
  rcases hbad with hg | hl
  · simp [configureFixtureGroup, State.live_eq_false h, below_ge hg]
  · cases hb : below 16 a.group <;> simp [configureFixtureGroup, State.live_eq_false h, Nat.not_le.2 hl, hb]

theorem configureFixtureGroup_taken {a : FixtureGroupArgs} (h : s.out.mode = .safe) {g : Fin 16}
    (hg : a.group.toNat = g.val) (hl : a.lead.toNat ≤ 500) :
    configureFixtureGroup tag a s =
      ({ s with light := { s.light with
          groups := s.light.groups.set g { members := a.members, lead := a.lead.toNat } } }).ok 0x39#8 tag := by
  simp [configureFixtureGroup, State.live_eq_false h, below_lt g hg, hl]

theorem configureLighting_live {a : LightingArgs} (h : s.out.mode = .live) :
    configureLighting tag a s = s.refuse 0x3A#8 tag .notSafe := by
  simp [configureLighting, (State.live_iff s).2 h]

theorem configureLighting_badArgument {a : LightingArgs} (h : s.out.mode = .safe)
    (hbad : a.period.toNat < 25 ∨ 1000 < a.period.toNat) :
    configureLighting tag a s = s.refuse 0x3A#8 tag .badArgument := by
  have hperiod : ¬ (25 ≤ a.period.toNat ∧ a.period.toNat ≤ 1000) := by omega
  simp [configureLighting, State.live_eq_false h, lightSettingsOf, hperiod]

/-- The settings that a LIGHTING_CONFIG in range carries (R126). -/
def settingsOf (a : LightingArgs) : LightSettings :=
  { dryLimit := a.dry.toNat, idleColour := ⟨a.r.toNat, a.g.toNat, a.b.toNat, a.w.toNat⟩,
    idleMaster := a.idleMaster.toNat, safeWhite := a.safeWhite.toNat, period := a.period.toNat }

theorem lightSettingsOf_in_range {a : LightingArgs} (hlow : 25 ≤ a.period.toNat) (hhigh : a.period.toNat ≤ 1000) :
    lightSettingsOf a = some (settingsOf a) := if_pos ⟨hlow, hhigh⟩

theorem configureLighting_after_frame {a : LightingArgs} (h : s.out.mode = .safe) (hlow : 25 ≤ a.period.toNat)
    (hhigh : a.period.toNat ≤ 1000) (hline : s.light.line ≠ []) :
    configureLighting tag a s =
      ({ s with light := { s.light with
          settings := settingsOf a,
          nextFrame := s.light.lastFrame + BitVec.ofNat 32 a.period.toNat } }).ok 0x3A#8 tag := by
  simp [configureLighting, State.live_eq_false h, lightSettingsOf_in_range hlow hhigh, hline, settingsOf]

theorem configureLighting_before_frame {a : LightingArgs} (h : s.out.mode = .safe) (hlow : 25 ≤ a.period.toNat)
    (hhigh : a.period.toNat ≤ 1000) (hline : s.light.line = []) :
    configureLighting tag a s = ({ s with light := { s.light with settings := settingsOf a } }).ok 0x3A#8 tag := by
  simp [configureLighting, State.live_eq_false h, lightSettingsOf_in_range hlow hhigh, hline]

end

/-- Settles O47: each request by the branch of its owner that its case selects; for FIXTURE_CONFIG the search for a
shared slot finds the lowest fixture that `SharesSlot` names, or none. -/
theorem lightConfigRequests : Obligations.LightConfigRequests := by
  refine ⟨fun s tag a hr => ?_, fun s tag a hr => ?_, fun s tag a hr => ?_⟩
  · rw [exec_fixtureConfig]
    refine ⟨fun h => request_refuses hr (configureFixture_live h),
      fun h hbad => request_refuses hr (configureFixture_badArgument h (hbad.imp_right fixtureCfgOf_out_of_range)),
      fun x bound h hx hbase hlead hkind hbound => ?_⟩
    have hcfg := fixtureCfgOf_in_range hbase hlead hkind hbound
    refine ⟨fun y hy hlow => ?_, fun hfree => ?_⟩
    · have hfound : s.overlapping x.val a.base.toNat = some y.val := overlapping_lowest hy hlow
      exact request_changes_light (l := s.light) hr (configureFixture_overlap (s := s.transmit.hunt) h hx hcfg hfound)
    · have hnone : s.overlapping x.val a.base.toNat = none := overlapping_none hfree
      exact request_changes_light hr (configureFixture_taken (s := s.transmit.hunt) h hx hcfg hnone)
  · rw [exec_fixtureGroupConfig]
    exact ⟨fun h => request_refuses hr (configureFixtureGroup_live h),
      fun h hbad => request_refuses hr (configureFixtureGroup_badArgument h hbad),
      fun g h hg hl => request_changes_light hr (configureFixtureGroup_taken (s := s.transmit.hunt) h hg hl)⟩
  · rw [exec_lightingConfig]
    exact ⟨fun h => request_refuses hr (configureLighting_live h),
      fun h hbad => request_refuses hr (configureLighting_badArgument h hbad),
      fun h hlow hhigh hline =>
        request_changes_light hr (configureLighting_after_frame (s := s.transmit.hunt) h hlow hhigh hline),
      fun h hlow hhigh hline =>
        request_changes_light hr (configureLighting_before_frame (s := s.transmit.hunt) h hlow hhigh hline)⟩

end Sys2Proof.Machine.Lighting
end

section
/-! SUPPORT. The slots of a lighting frame: their number, and the bytes at them (R138). -/

namespace Sys2Proof.Machine.Lighting
open WindGovernor

/-! ### The number of slots -/

/-- The count in the form of the lemmas about a highest successor. -/
theorem slotCount_eq (fs : List Fixture) : slotCount fs =
    ((fs.filter fun f => f.cfg.base != 0).map fun f => f.cfg.base + 2).foldl (fun m i => max m (i + 1)) 24 := by
  simp [slotCount, List.foldl_map]

theorem slotCount_le_iff {fs : List Fixture} {n : Nat} :
    slotCount fs ≤ n ↔ 24 ≤ n ∧ ∀ f ∈ fs, 1 ≤ f.cfg.base → f.cfg.base + 3 ≤ n := by
  simp only [slotCount_eq, foldl_max_succ_le_iff, List.forall_mem_map, List.mem_filter, bne_iff_ne, and_imp,
    Nat.one_le_iff_ne_zero]

theorem slotCount_cases (fs : List Fixture) :
    slotCount fs = 24 ∨ ∃ f ∈ fs, 1 ≤ f.cfg.base ∧ slotCount fs = f.cfg.base + 3 := by
  rw [slotCount_eq]
  refine (foldl_max_succ_eq_or_mem 24 _).imp_right ?_
  rintro ⟨i, hi, h⟩
  obtain ⟨f, hf, rfl⟩ := List.mem_map.1 hi
  obtain ⟨hmem, hbase⟩ := List.mem_filter.1 hf
  exact ⟨f, hmem, Nat.one_le_iff_ne_zero.2 (by simpa using hbase), h⟩

/-! ### One fixture's bytes put in -/

/-- Slot k is one of an assigned fixture's four slots; it stands at place k − 1 of a list of slots. -/
def HasSlot (f : Fixture) (k : Nat) : Prop := 1 ≤ f.cfg.base ∧ f.cfg.base ≤ k ∧ k ≤ f.cfg.base + 3

/-- The bytes of a fixture at its four slots. -/
def bytesOut (f : Fixture) : List Byte :=
  [BitVec.ofNat 8 f.live.output.r, BitVec.ofNat 8 f.live.output.g, BitVec.ofNat 8 f.live.output.b,
    BitVec.ofNat 8 f.live.output.w]

theorem place_unassigned {f : Fixture} (h : f.cfg.base = 0) (slots : List Byte) : f.place slots = slots := if_pos h

theorem place_assigned {f : Fixture} {b : Nat} (h : f.cfg.base = b + 1) (slots : List Byte) : f.place slots =
    (((slots.set b (BitVec.ofNat 8 f.live.output.r)).set (b + 1) (BitVec.ofNat 8 f.live.output.g)).set (b + 2)
      (BitVec.ofNat 8 f.live.output.b)).set (b + 3) (BitVec.ofNat 8 f.live.output.w) := by
  simp [Fixture.place, h]

theorem place_length (f : Fixture) (slots : List Byte) : (f.place slots).length = slots.length := by
  unfold Fixture.place
  split <;> simp

theorem place_getElem?_other {f : Fixture} {k : Nat} (h : ¬ HasSlot f (k + 1)) (slots : List Byte) :
    (f.place slots)[k]? = slots[k]? := by
  cases hb : f.cfg.base with
  | zero => rw [place_unassigned hb]
  | succ b =>
    rw [HasSlot, hb] at h
    rw [place_assigned hb, List.getElem?_set_ne (by omega), List.getElem?_set_ne (by omega),
      List.getElem?_set_ne (by omega), List.getElem?_set_ne (by omega)]

theorem place_getElem?_own {f : Fixture} {b : Nat} (hb : f.cfg.base = b + 1) {slots : List Byte}
    (hlen : b + 4 ≤ slots.length) (j : Fin 4) : (f.place slots)[b + j.val]? = (bytesOut f)[j.val]? := by
  rw [place_assigned hb]
  match j with
  | 0 =>
    change (List.set _ (b + 3) _)[b]? = some (BitVec.ofNat 8 f.live.output.r)
    rw [List.getElem?_set_ne (by omega), List.getElem?_set_ne (by omega), List.getElem?_set_ne (by omega),
      List.getElem?_set_self (by omega)]
  | 1 =>
    change (List.set _ (b + 3) _)[b + 1]? = some (BitVec.ofNat 8 f.live.output.g)
    rw [List.getElem?_set_ne (by omega), List.getElem?_set_ne (by omega),
      List.getElem?_set_self (by simp only [List.length_set]; omega)]
  | 2 =>
    change (List.set _ (b + 3) _)[b + 2]? = some (BitVec.ofNat 8 f.live.output.b)
    rw [List.getElem?_set_ne (by omega), List.getElem?_set_self (by simp only [List.length_set]; omega)]
  | 3 =>
    change (List.set _ (b + 3) _)[b + 3]? = some (BitVec.ofNat 8 f.live.output.w)
    rw [List.getElem?_set_self (by simp only [List.length_set]; omega)]

/-! ### The slots of a whole frame -/

theorem foldl_place_length (fs : List Fixture) (slots : List Byte) :
    (fs.foldl Fixture.place slots).length = slots.length := by
  induction fs generalizing slots with
  | nil => rfl
  | cons f fs ih => rw [List.foldl_cons, ih, place_length]

theorem frameSlots_length (fs : List Fixture) : (frameSlots fs).length = slotCount fs := by
  rw [frameSlots, foldl_place_length, List.length_replicate]

theorem foldl_place_getElem?_other {fs : List Fixture} {k : Nat} (h : ∀ f ∈ fs, ¬ HasSlot f (k + 1))
    (slots : List Byte) : (fs.foldl Fixture.place slots)[k]? = slots[k]? := by
  induction fs generalizing slots with
  | nil => rfl
  | cons f fs ih =>
    obtain ⟨hf, hfs⟩ := List.forall_mem_cons.1 h
    rw [List.foldl_cons, ih hfs, place_getElem?_other hf]

/-- A slot of an assigned fixture is no slot of a fixture that shares none with it. -/
theorem not_hasSlot_of_basesOverlap {f g : Fixture} {b : Nat} (hb : g.cfg.base = b + 1)
    (h : basesOverlap g.cfg.base f.cfg.base = false) (j : Fin 4) : ¬ HasSlot f (b + j.val + 1) := by
  rintro ⟨hassigned, hlow, hhigh⟩
  have hj := j.isLt
  exact Bool.eq_false_iff.1 h (basesOverlap_iff.2 ⟨by omega, by omega, by omega, by omega⟩)

/-- A fixture that shares no slot has its bytes at its own: no fixture placed after it reaches them. -/
theorem foldl_place_getElem?_own {fs : List Fixture} {g : Fixture} (hg : g ∈ fs) {b : Nat} (hb : g.cfg.base = b + 1)
    (hothers : ∀ f ∈ fs, f = g ∨ basesOverlap g.cfg.base f.cfg.base = false) {slots : List Byte}
    (hlen : b + 4 ≤ slots.length) (j : Fin 4) :
    (fs.foldl Fixture.place slots)[b + j.val]? = (bytesOut g)[j.val]? := by
  induction fs generalizing slots with
  | nil => exact absurd hg List.not_mem_nil
  | cons f fs ih =>
    obtain ⟨-, hrest⟩ := List.forall_mem_cons.1 hothers
    rw [List.foldl_cons]
    by_cases hlater : g ∈ fs
    · exact ih hlater hrest (by rwa [place_length])
    · obtain rfl : g = f := (List.mem_cons.1 hg).resolve_right hlater
      have hafter : ∀ f ∈ fs, ¬ HasSlot f (b + j.val + 1) := fun f hf =>
        not_hasSlot_of_basesOverlap hb ((hrest f hf).resolve_left fun hsame => hlater (hsame ▸ hf)) j
      rw [foldl_place_getElem?_other hafter]
      exact place_getElem?_own hb hlen j

theorem frameSlots_getElem?_own {fs : List Fixture} {g : Fixture} (hg : g ∈ fs) {b : Nat} (hb : g.cfg.base = b + 1)
    (hothers : ∀ f ∈ fs, f = g ∨ basesOverlap g.cfg.base f.cfg.base = false) (j : Fin 4) :
    (frameSlots fs)[b + j.val]? = (bytesOut g)[j.val]? := by
  have hcount : g.cfg.base + 3 ≤ slotCount fs := (slotCount_le_iff.1 (Nat.le_refl _)).2 g hg (by omega)
  exact foldl_place_getElem?_own hg hb hothers (by rw [List.length_replicate]; omega) j

theorem frameSlots_getElem?_free {fs : List Fixture} {k : Nat} (hk : k < slotCount fs)
    (h : ∀ f ∈ fs, ¬ HasSlot f (k + 1)) : (frameSlots fs)[k]? = some 0#8 := by
  rw [frameSlots, foldl_place_getElem?_other h, List.getElem?_replicate, if_pos hk]

end Sys2Proof.Machine.Lighting
end

section
/-! SUPPORT. What a frame makes of one fixture (R128, R133 to R137). -/

namespace Sys2Proof.Machine.Lighting
open JetChannels

/-! ### Colour fades and output bytes (R128, R136) -/

/-- The fade of one component of a colour fade. -/
def componentFade (f : ColourFade) (a b : Nat) : Fade :=
  { start := a, target := b, t0 := f.t0, duration := f.duration, held := f.held }

theorem ColourFade.valueAt_eq (f : ColourFade) (now : PlantTime) : f.valueAt now =
    ⟨(componentFade f f.start.r f.target.r).valueAt now, (componentFade f f.start.g f.target.g).valueAt now,
      (componentFade f f.start.b f.target.b).valueAt now, (componentFade f f.start.w f.target.w).valueAt now⟩ := rfl

theorem outputByte_full (i : Nat) : outputByte 255 i = i := by
  unfold outputByte
  omega

theorem outputByte_le {b : Nat} (h : b ≤ 255) (i : Nat) : outputByte b i ≤ i := by
  calc outputByte b i ≤ outputByte 255 i :=
        Nat.div_le_div_right (Nat.add_le_add_right (Nat.mul_le_mul_right i h) 127)
    _ = i := outputByte_full i

theorem outputByte_dark (b : Nat) : outputByte b 0 = 0 := by simp [outputByte]

/-- The quotient is the nearest one. -/
theorem outputByte_nearest (b i : Nat) :
    255 * outputByte b i ≤ b * i + 127 ∧ b * i < 255 * outputByte b i + 128 := by
  unfold outputByte
  omega

/-! ### The intensity (R133 to R135) -/

theorem intensityFrom_eq (l : FixtureLive) (env : Nat) :
    l.intensityFrom env = if l.mode = .steady then l.master else l.master * env / 255 := by
  cases h : l.mode <;> simp [FixtureLive.intensityFrom, h]

theorem covers_iff {k : LampKind} {x : FixtureKind} : k.covers x = true ↔ k = .all ∨ k = .only x := by
  cases k <;> simp [LampKind.covers]

theorem caps_eq_some {k : ReactionKind} {x : FixtureKind} {v : Nat} :
    k.caps x = some v ↔ ∃ l : LampKind, k = .lampLimit l v ∧ l.covers x = true := by
  cases k with
  | lampLimit l w =>
    simp only [ReactionKind.caps, Option.ite_none_right_eq_some, Option.some.injEq, ReactionKind.lampLimit.injEq]
    constructor
    · rintro ⟨hcovers, rfl⟩
      exact ⟨l, ⟨rfl, rfl⟩, hcovers⟩
    · rintro ⟨_, ⟨rfl, rfl⟩, hcovers⟩
      exact ⟨hcovers, rfl⟩
  | _ => simp [ReactionKind.caps]

/-- The values among which a fixture's limits take the lowest (R135). -/
theorem mem_lampCaps {s : State} {x : FixtureKind} {v : Nat} : v ∈ s.lampCaps x ↔
    ∃ r ∈ s.trip.reactions.cells, s.isActive r = true ∧
      ∃ k : LampKind, r.cfg.kind = .lampLimit k v ∧ k.covers x = true := by
  simp only [State.lampCaps, List.mem_filterMap, caps_eq_some, State.mem_activeKinds]
  constructor
  · rintro ⟨_, ⟨r, hr, ha, rfl⟩, hk⟩
    exact ⟨r, hr, ha, hk⟩
  · rintro ⟨r, hr, ha, hk⟩
    exact ⟨r.cfg.kind, ⟨r, hr, ha, rfl⟩, hk⟩

/-- The intensity before the gate and the lamp limits: the master, in FOLLOW its share of the envelope (R133). -/
def baseIntensity (s : State) (f : Fixture) : Nat :=
  if f.live.mode = .steady then f.live.master else f.live.master * s.audio.envelope / 255

/-- The grant of the channel a fixture is bound to. -/
def boundGrant (s : State) (f : Fixture) : Option Nat := f.cfg.bound.map fun c => (s.jets.channels.get c).live.grant

/-- The intensity after the gate (R134). -/
def gatedIntensity (s : State) (f : Fixture) : Nat :=
  if boundGrant s f = some 0 then min (baseIntensity s f) s.light.settings.dryLimit else baseIntensity s f

theorem gatedIntensity_le (s : State) (f : Fixture) : gatedIntensity s f ≤ baseIntensity s f := by
  unfold gatedIntensity
  split
  · exact Nat.min_le_left _ _
  · exact Nat.le_refl _

theorem gatedIntensity_unbound {s : State} {f : Fixture} (h : f.cfg.bound = none) :
    gatedIntensity s f = baseIntensity s f := by
  simp [gatedIntensity, boundGrant, h]

theorem gatedIntensity_bound {s : State} {f : Fixture} {c : Fin 48} (h : f.cfg.bound = some c) : gatedIntensity s f =
    if (s.jets.channels.get c).live.grant = 0 then min (baseIntensity s f) s.light.settings.dryLimit
    else baseIntensity s f := by
  simp [gatedIntensity, boundGrant, h]

/-- The intensity after the lamp limits (R135). -/
def lampIntensity (s : State) (f : Fixture) : Nat := lowest (gatedIntensity s f) (s.lampCaps f.cfg.kind)

theorem lampIntensity_le_gated (s : State) (f : Fixture) : lampIntensity s f ≤ gatedIntensity s f :=
  (le_lowest_iff.1 (Nat.le_refl _)).1

theorem lampIntensity_le_limit {s : State} {f : Fixture} {r : Reaction} (hr : r ∈ s.trip.reactions.cells)
    (ha : s.isActive r = true) {k : LampKind} {v : Nat} (hk : r.cfg.kind = .lampLimit k v)
    (hcovers : k.covers f.cfg.kind = true) : lampIntensity s f ≤ v :=
  (le_lowest_iff.1 (Nat.le_refl _)).2 v (mem_lampCaps.2 ⟨r, hr, ha, k, hk, hcovers⟩)

theorem lampIntensity_cases (s : State) (f : Fixture) : lampIntensity s f = gatedIntensity s f ∨
    ∃ r ∈ s.trip.reactions.cells, s.isActive r = true ∧
      ∃ k : LampKind, r.cfg.kind = .lampLimit k (lampIntensity s f) ∧ k.covers f.cfg.kind = true :=
  (lowest_eq_or_mem _ _).imp_right mem_lampCaps.1

theorem lampIntensity_le_dryLimit {s : State} {f : Fixture} {c : Fin 48} (hc : f.cfg.bound = some c)
    (hdry : (s.jets.channels.get c).live.grant = 0) : lampIntensity s f ≤ s.light.settings.dryLimit := by
  have hgated : gatedIntensity s f ≤ s.light.settings.dryLimit := by
    rw [gatedIntensity_bound hc, if_pos hdry]
    exact Nat.min_le_right _ _
  exact Nat.le_trans (lampIntensity_le_gated s f) hgated

/-! ### The record after a frame (R133 to R137) -/

/-- A fixture after a frame in LIVE. -/
def litFixture (s : State) (f : Fixture) : Fixture :=
  let i := lampIntensity s f
  let c := f.live.fade.valueAt s.clock.plantTime
  { f with live := { f.live with
      intensity := i,
      limits := { dry := decide (gatedIntensity s f < baseIntensity s f), limit := decide (i < gatedIntensity s f),
                  safe := false },
      output := ⟨outputByte (c.r / 256) i, outputByte (c.g / 256) i, outputByte (c.b / 256) i,
        outputByte (c.w / 256) i⟩ } }

theorem frame_eq_litFixture (s : State) (f : Fixture) :
    f.frame s.now s.audio.envelope s.light.settings.dryLimit (boundGrant s f) (s.lampCaps f.cfg.kind) =
      litFixture s f := by
  have hbase : f.live.intensityFrom s.audio.envelope = baseIntensity s f := intensityFrom_eq f.live _
  unfold Fixture.frame
  rw [hbase]
  rfl

section
variable {s : State} {x : Fin 96}

theorem framedFixtures_get_live (h : s.out.mode = .live) :
    s.framedFixtures.get x = litFixture s (s.light.fixtures.get x) := by
  rw [State.framedFixtures, if_pos ((State.live_iff s).2 h), Table.get_map]
  exact frame_eq_litFixture s _

theorem framedFixtures_get_safe (h : s.out.mode = .safe) :
    s.framedFixtures.get x = (s.light.fixtures.get x).safeLook s.light.settings.safeWhite := by
  have hlive : ¬ s.live = true := by simp [State.live_eq_false h]
  rw [State.framedFixtures, if_neg hlive, Table.get_map]

/-- What a frame leaves of a fixture as it is, in either mode. -/
theorem framedFixtures_frame (s : State) (x : Fin 96) :
    (s.framedFixtures.get x).cfg = (s.light.fixtures.get x).cfg ∧
      (s.framedFixtures.get x).live.fade = (s.light.fixtures.get x).live.fade ∧
      (s.framedFixtures.get x).live.master = (s.light.fixtures.get x).live.master ∧
      (s.framedFixtures.get x).live.mode = (s.light.fixtures.get x).live.mode := by
  cases h : s.out.mode with
  | live =>
    rw [framedFixtures_get_live h]
    exact ⟨rfl, rfl, rfl, rfl⟩
  | safe =>
    rw [framedFixtures_get_safe h]
    exact ⟨rfl, rfl, rfl, rfl⟩

theorem framedFixtures_base (s : State) (x : Fin 96) :
    (s.framedFixtures.get x).cfg.base = (s.light.fixtures.get x).cfg.base := by
  rw [(framedFixtures_frame s x).1]

end

end Sys2Proof.Machine.Lighting
end

section
/-! SUPPORT. The lighting frame as a step: when it is taken, and the state it leaves (R132, R138). -/

namespace Sys2Proof.Machine.Lighting
open JetChannels

/-- The frame's time is reached and the line is idle (R132; log 1, log 21). -/
def FrameDue (s : State) : Prop :=
  (s.clock.plantTime - s.light.nextFrame).toNat < 2 ^ 31 ∧
    (s.light.line = [] ∨ 112 + 44 * (s.light.lastSlots + 1) ≤ 1000 * elapsed s.light.lastFrame s.clock.plantTime)

theorem frameDue_iff (s : State) : (reached s.now s.light.nextFrame && s.lightLineIdle) = true ↔ FrameDue s := by
  simp only [reached, State.lightLineIdle, Bool.and_eq_true, Bool.or_eq_true, decide_eq_true_eq, List.isEmpty_iff]
  rfl

/-- The state after a frame. -/
def framed (s : State) : State :=
  { s with
    light := { s.light with
      fixtures := s.framedFixtures,
      nextFrame := s.clock.plantTime + BitVec.ofNat 32 s.light.settings.period,
      frameCount := s.light.frameCount + 1, lastFrame := s.clock.plantTime,
      lastSlots := slotCount s.framedFixtures.cells,
      lastEnvelope := if s.live then some s.audio.envelope else none,
      line := 0#8 :: frameSlots s.framedFixtures.cells },
    link := s.link.choose }

theorem exec_lightingFrame_passed {s : State} (hp : s.phase = .running) (h : ¬ FrameDue s) :
    exec .lightingFrame s = .next (s.passed []) := by
  have hidle : sendLightingFrame s.transmit = s.transmit := if_neg (mt (frameDue_iff s.transmit).1 h)
  calc exec .lightingFrame s = .next (sendLightingFrame s.transmit).transmit := happens_of_running hp _
    _ = .next (s.passed []) := by rw [hidle]; rfl

theorem exec_lightingFrame_due {s : State} (hp : s.phase = .running) (h : FrameDue s) :
    exec .lightingFrame s = .next (framed s) := by
  have hsend : sendLightingFrame s.transmit = framed s := if_pos ((frameDue_iff s.transmit).2 h)
  have hchosen : (framed s).transmit = framed s := by simp [State.transmit, framed]
  calc exec .lightingFrame s = .next (sendLightingFrame s.transmit).transmit := happens_of_running hp _
    _ = .next (framed s) := by rw [hsend, hchosen]

/-! ### The line after a frame (R138) -/

theorem framed_line_length (s : State) : (framed s).light.line.length = (framed s).light.lastSlots + 1 :=
  congrArg (· + 1) (frameSlots_length s.framedFixtures.cells)

theorem le_framed_lastSlots (s : State) : 24 ≤ (framed s).light.lastSlots := (slotCount_le_iff.1 (Nat.le_refl _)).1

section
variable {s : State} {x : Fin 96}

theorem base_le_framed_lastSlots (h : 1 ≤ (s.light.fixtures.get x).cfg.base) :
    (s.light.fixtures.get x).cfg.base + 3 ≤ (framed s).light.lastSlots := by
  rw [← framedFixtures_base] at h ⊢
  exact (slotCount_le_iff.1 (Nat.le_refl _)).2 _ (Table.get_mem _ x) h

theorem framed_lastSlots_cases (s : State) : (framed s).light.lastSlots = 24 ∨
    ∃ x, 1 ≤ (s.light.fixtures.get x).cfg.base ∧
      (framed s).light.lastSlots = (s.light.fixtures.get x).cfg.base + 3 := by
  refine (slotCount_cases s.framedFixtures.cells).imp_right ?_
  rintro ⟨f, hf, hbase, hcount⟩
  obtain ⟨x, rfl⟩ := Table.mem_cells.1 hf
  rw [framedFixtures_base] at hbase hcount
  exact ⟨x, hbase, hcount⟩

theorem framed_line_free {k : Nat} (hk : 1 ≤ k) (hlast : k ≤ (framed s).light.lastSlots)
    (h : ∀ x, ¬ HasSlot (s.light.fixtures.get x) k) : (framed s).light.line[k]? = some 0#8 := by
  obtain ⟨k, rfl⟩ : ∃ j, k = j + 1 := ⟨k - 1, by omega⟩
  refine frameSlots_getElem?_free hlast fun f hf => ?_
  obtain ⟨x, rfl⟩ := Table.mem_cells.1 hf
  rw [HasSlot, framedFixtures_base]
  exact h x

/-- A fixture that shares no slot has its bytes on the line at its own. -/
theorem framed_line_own (hbase : 1 ≤ (s.light.fixtures.get x).cfg.base)
    (hothers : ∀ y, y ≠ x →
      basesOverlap (s.light.fixtures.get x).cfg.base (s.light.fixtures.get y).cfg.base = false) (j : Fin 4) :
    (framed s).light.line.getD ((s.light.fixtures.get x).cfg.base + j.val) 0#8 =
      (bytesOut ((framed s).light.fixtures.get x)).getD j.val 0#8 := by
  obtain ⟨b, hb⟩ : ∃ b, (s.light.fixtures.get x).cfg.base = b + 1 := ⟨_, (Nat.sub_add_cancel hbase).symm⟩
  have hown : (frameSlots s.framedFixtures.cells)[b + j.val]? = (bytesOut (s.framedFixtures.get x))[j.val]? := by
    refine frameSlots_getElem?_own (Table.get_mem _ x) ((framedFixtures_base s x).trans hb) (fun f hf => ?_) j
    obtain ⟨y, rfl⟩ := Table.mem_cells.1 hf
    rw [framedFixtures_base, framedFixtures_base]
    by_cases hy : y = x
    · exact .inl (congrArg _ hy)
    · exact .inr (hothers y hy)
  rw [List.getD_eq_getElem?_getD, List.getD_eq_getElem?_getD, hb, Nat.add_right_comm]
  exact congrArg (·.getD 0#8) hown

end

/-- Settles O49: a due frame leaves `framed s`; its line is read off slot by slot, and each fixture off `litFixture` in
LIVE, whose intensity is the lowest of the limits, or off the safe look. -/
theorem lightingFrameCaps : Obligations.LightingFrameCaps := by
  refine ⟨fun s hp => ⟨exec_lightingFrame_passed hp, fun hdue => ⟨framed s, exec_lightingFrame_due hp hdue, rfl, rfl,
    rfl, rfl, rfl, rfl, framed_line_length s, le_framed_lastSlots s, rfl,
    ⟨fun x => base_le_framed_lastSlots, framed_lastSlots_cases s, fun k => framed_line_free⟩,
    fun h => if_pos ((State.live_iff s).2 h), fun x => ?_⟩⟩, fun _ _ => covers_iff, ColourFade.valueAt_eq,
    fun f now env dryLimit grant caps => ⟨rfl, fun b i hb => ?_⟩⟩
  · obtain ⟨hcfg, hfade, hmaster, hmode⟩ := framedFixtures_frame s x
    refine ⟨hcfg, hfade, hmaster, hmode, fun h => ?_, fun h => ?_, fun hbase hothers => ?_⟩
    · have hsafe : (framed s).light.fixtures.get x = _ := framedFixtures_get_safe h
      rw [hsafe]
      exact ⟨rfl, rfl, rfl⟩
    · have hlit : (framed s).light.fixtures.get x = _ := framedFixtures_get_live h
      rw [hlit]
      have hbase := Nat.le_trans (lampIntensity_le_gated s (s.light.fixtures.get x)) (gatedIntensity_le s _)
      refine ⟨fun hsteady => Nat.le_trans hbase (Nat.le_of_eq (if_pos hsteady)),
        fun hfollow => Nat.le_trans hbase (Nat.le_of_eq (if_neg (by simp [hfollow]))),
        fun c => lampIntensity_le_dryLimit,
        fun r hr ha k v hk => lampIntensity_le_limit hr ha hk, ?_⟩
      intro base gated i c
      have hgated : gated = gatedIntensity s (s.light.fixtures.get x) := by
        simp only [gated]
        split
        · next hc => exact (gatedIntensity_bound hc).symm
        · next hc => exact (gatedIntensity_unbound hc).symm
      rw [hgated]
      refine ⟨lampIntensity_le_gated s _, (lampIntensity_cases s _).imp_right ?_, rfl, rfl⟩
      rintro ⟨r, hr, ha, k, hk, hcovers⟩
      exact ⟨r, hr, ha, k, hk, covers_iff.1 hcovers⟩
    · have hbytes := framed_line_own hbase hothers
      exact ⟨hbytes 0, hbytes 1, hbytes 2, hbytes 3⟩
  · obtain ⟨hfloor, hceil⟩ := outputByte_nearest b i
    refine ⟨?_, outputByte_le hb i, ?_, hfloor, hceil⟩
    · rintro rfl
      exact outputByte_full i
    · rintro rfl
      exact outputByte_dark b

end Sys2Proof.Machine.Lighting
end

section
/-! SUPPORT. Pumps at 0: which changes of one pump keep its target and commanded speed at 0, and keep them at 0 while it
is FAULTED or LOCKED (R91, R94 to R102). -/

namespace Sys2Proof.Machine.PlantSafety

/-- The target and the commanded speed are 0 (R178). -/
def AtZero (p : Pump) : Prop := p.live.target = 0 ∧ p.live.commanded = 0

/-- The pump is at 0 if it is FAULTED or LOCKED (R99, R101). -/
def ZeroIfStopped (p : Pump) : Prop := p.live.state = .faulted ∨ p.live.state = .locked → AtZero p

/-- What a change from one pump record to another keeps. -/
structure PumpKept (p q : Pump) : Prop where
  zero : AtZero p → AtZero q
  stopped : ZeroIfStopped p → ZeroIfStopped q

theorem PumpKept.refl (p : Pump) : PumpKept p p := ⟨id, id⟩

theorem PumpKept.trans {p q r : Pump} (h : PumpKept p q) (h' : PumpKept q r) : PumpKept p r :=
  ⟨h'.zero ∘ h.zero, h'.stopped ∘ h.stopped⟩

theorem PumpKept.of_atZero {p q : Pump} (h : AtZero q) : PumpKept p q := ⟨fun _ => h, fun _ _ => h⟩

theorem zeroIfStopped_of_takesTarget {p : Pump} (h : p.live.state.takesTarget = true) : ZeroIfStopped p := by
  intro hstop
  rcases hstop with hf | hl
  · simp [hf, PumpState.takesTarget] at h
  · simp [hl, PumpState.takesTarget] at h

/-- A change to a state that takes targets keeps the pump if it raises nothing. -/
theorem PumpKept.of_takesTarget {p q : Pump} (hq : q.live.state.takesTarget = true) (h : AtZero p → AtZero q) :
    PumpKept p q :=
  ⟨h, fun _ => zeroIfStopped_of_takesTarget hq⟩

/-! ### Targets and ramps (R91, R95) -/

theorem give_zeroIfStopped {p : Pump} (h : ZeroIfStopped p) (speed ramp : Nat) : ZeroIfStopped (p.give speed ramp) := by
  unfold Pump.give
  split
  · next ht => exact zeroIfStopped_of_takesTarget ht
  · exact h

theorem rampStep_zero (ramp : Nat) : rampStep 0 0 ramp = 0 := by simp [rampStep, moveToward]

theorem ramp_kept (p : Pump) : PumpKept p p.ramp := by
  unfold Pump.ramp
  split
  · next ht =>
    refine .of_takesTarget ht fun ⟨htarget, hcommanded⟩ => ⟨htarget, ?_⟩
    show rampStep p.live.commanded p.live.target p.live.ramp = 0
    rw [htarget, hcommanded, rampStep_zero]
  · exact .refl p

/-! ### States (R96 to R101) -/

theorem judgeLock_kept (p : Pump) (lock : Bool) : PumpKept p (p.judgeLock lock) := by
  unfold Pump.judgeLock
  split
  · split
    · exact .refl p
    · exact .of_atZero ⟨rfl, rfl⟩
  · split
    · exact .of_takesTarget rfl fun h => ⟨rfl, h.2⟩
    · exact .refl p

theorem nextState_takesTarget {p : Pump} (h : p.nextState ≠ p.live.state) : p.nextState.takesTarget = true := by
  unfold Pump.nextState at h ⊢
  cases hs : p.live.state with
  | stopped => by_cases ht : 0 < p.live.target <;> simp [ht, PumpState.takesTarget]
  | starting =>
    by_cases ht : p.live.target = 0 <;> by_cases ha : p.cfg.minSpeed ≤ p.live.actual <;>
      simp [ht, ha, PumpState.takesTarget]
  | running => by_cases ht : p.live.target = 0 <;> simp [ht, PumpState.takesTarget]
  | stopping =>
    by_cases ht : 0 < p.live.target <;> by_cases ha : p.live.actual = 0 <;> simp [ht, ha, PumpState.takesTarget]
  | faulted => simp [hs] at h
  | locked => simp [hs] at h

theorem transition_kept (p : Pump) (now : PlantTime) : PumpKept p (p.transition now) := by
  simp only [Pump.transition]
  split
  · exact .refl p
  · next hmoves =>
    refine .of_takesTarget (nextState_takesTarget hmoves) fun ⟨htarget, hcommanded⟩ => ⟨htarget, ?_⟩
    show (if p.nextState = .stopped then 0 else p.live.commanded) = 0
    rw [hcommanded, ite_self]

end Sys2Proof.Machine.PlantSafety
end

section
/-! SUPPORT. What an operation keeps of a safe plant: the relation between two states, and the ways it comes about. -/

namespace Sys2Proof.Machine.PlantSafety
open JetChannels

/-- From the first state to the second a SAFE plant stays held, and a FAULTED or LOCKED pump stays at 0. -/
structure Keeps (s t : State) : Prop where
  safe : s.SafeHolds → t.SafeHolds
  stopped : s.StoppedPumpsHold → t.StoppedPumpsHold

theorem Keeps.refl (s : State) : Keeps s s := ⟨id, id⟩

theorem Keeps.trans {s t u : State} (h : Keeps s t) (h' : Keeps t u) : Keeps s u :=
  ⟨h'.safe ∘ h.safe, h'.stopped ∘ h.stopped⟩

theorem safeHolds_iff (s : State) : s.SafeHolds ↔ (s.out.mode = .safe →
    s.out.pwmOn = false ∧ s.seq.state = .idle ∧ ∀ i, AtZero (s.water.pumps.get i)) := by
  simp [State.SafeHolds, Table.mem_cells, AtZero]

theorem stoppedPumpsHold_iff (s : State) : s.StoppedPumpsHold ↔ ∀ i, ZeroIfStopped (s.water.pumps.get i) := by
  simp [State.StoppedPumpsHold, Table.mem_cells, ZeroIfStopped, AtZero]

/-- The fields that the two invariants read. -/
abbrev plant (s : State) := (s.out.mode, s.out.pwmOn, s.seq.state, s.water.pumps)

/-- Pumps that change one by one, with the rest of the plant as it stands. -/
theorem Keeps.of_pumps {s t : State} (hout : t.out = s.out) (hseq : t.seq = s.seq)
    (hpumps : ∀ i, PumpKept (s.water.pumps.get i) (t.water.pumps.get i)) : Keeps s t := by
  refine ⟨fun h => (safeHolds_iff t).2 fun hmode => ?_, fun h => (stoppedPumpsHold_iff t).2 fun i => ?_⟩
  · rw [hout] at hmode ⊢
    rw [hseq]
    obtain ⟨hpwm, hidle, hzero⟩ := (safeHolds_iff s).1 h hmode
    exact ⟨hpwm, hidle, fun i => (hpumps i).zero (hzero i)⟩
  · exact (hpumps i).stopped ((stoppedPumpsHold_iff s).1 h i)

/-- An operation that leaves the fields as they are. -/
theorem Keeps.of_plant {s t : State} (h : plant t = plant s) : Keeps s t := by
  obtain ⟨hmode, hpwm, hstate, hpumps⟩ : t.out.mode = s.out.mode ∧ t.out.pwmOn = s.out.pwmOn ∧
    t.seq.state = s.seq.state ∧ t.water.pumps = s.water.pumps := by simpa using h
  constructor
  · rw [safeHolds_iff, safeHolds_iff, hmode, hpwm, hstate, hpumps]
    exact id
  · rw [stoppedPumpsHold_iff, stoppedPumpsHold_iff, hpumps]
    exact id

theorem Keeps.congr_left {s s' t : State} (h : Keeps s t) (hs : plant s = plant s') : Keeps s' t :=
  (of_plant hs).trans h

theorem Keeps.congr_right {s t t' : State} (h : Keeps s t) (ht : plant t' = plant t) : Keeps s t' :=
  h.trans (of_plant ht)

/-- An operation that ends in LIVE has only the FAULTED and LOCKED pumps to heed. -/
theorem Keeps.of_live {s t : State} (hlive : t.out.mode = .live) (hp : s.StoppedPumpsHold → t.StoppedPumpsHold) :
    Keeps s t :=
  ⟨fun _ hsafe => by simp [hlive] at hsafe, hp⟩

/-- A run in progress is one in LIVE, if the plant is held in SAFE. -/
theorem Keeps.of_active {s t : State} (hactive : s.seq.state ≠ .idle) (hmode : t.out.mode = s.out.mode)
    (hp : s.StoppedPumpsHold → t.StoppedPumpsHold) : Keeps s t :=
  ⟨fun h hsafe => absurd (h (hmode ▸ hsafe)).2.1 hactive, hp⟩

/-- An operation after which the plant is held in whatever mode. -/
theorem Keeps.of_held {s t : State} (hpwm : t.out.pwmOn = false) (hidle : t.seq.state = .idle)
    (hzero : ∀ i, AtZero (t.water.pumps.get i)) : Keeps s t :=
  ⟨fun _ => (safeHolds_iff t).2 fun _ => ⟨hpwm, hidle, hzero⟩,
    fun _ => (stoppedPumpsHold_iff t).2 fun i _ => hzero i⟩

/-- What the deliveries of a run do: mode and sequencer state stand, and a FAULTED or LOCKED pump stays at 0. -/
structure Drives (s t : State) : Prop where
  mode : t.out.mode = s.out.mode
  state : t.seq.state = s.seq.state
  stopped : s.StoppedPumpsHold → t.StoppedPumpsHold

theorem Drives.of_plant {s t : State} (h : plant t = plant s) : Drives s t :=
  ⟨congrArg (·.1) h, congrArg (·.2.2.1) h, (Keeps.of_plant h).stopped⟩

theorem Drives.trans {s t u : State} (h : Drives s t) (h' : Drives t u) : Drives s u :=
  ⟨h'.mode.trans h.mode, h'.state.trans h.state, h'.stopped ∘ h.stopped⟩

theorem Drives.congr_left {s s' t : State} (h : Drives s t) (hs : plant s = plant s') : Drives s' t :=
  (of_plant hs).trans h

theorem Drives.congr_right {s t t' : State} (h : Drives s t) (ht : plant t' = plant t) : Drives s t' :=
  h.trans (of_plant ht)

theorem Drives.keeps {s t : State} (h : Drives s t) (hactive : s.seq.state ≠ .idle) : Keeps s t :=
  .of_active hactive h.mode h.stopped

theorem Drives.active {s t : State} (h : Drives s t) (hactive : s.seq.state ≠ .idle) : t.seq.state ≠ .idle :=
  h.state ▸ hactive

/-! ### Pumps -/

theorem onPump_keeps {s : State} {p : Fin 8} {f : Pump → Pump}
    (h : PumpKept (s.water.pumps.get p) (f (s.water.pumps.get p))) : Keeps s (s.onPump p f) := by
  refine .of_pumps rfl rfl fun i => ?_
  rw [State.onPump_pumps, Table.get_modify]
  split
  · next hi => exact hi ▸ h
  · exact .refl _

theorem givePumps_get (s : State) (reach : Nat → Pump → Bool) (speed ramp : Nat) (i : Fin 8) :
    (s.givePumps reach speed ramp).water.pumps.get i =
      if reach i (s.water.pumps.get i) then (s.water.pumps.get i).give speed ramp else s.water.pumps.get i :=
  Table.get_mapIdx _ _ i

theorem givePumps_drives (s : State) (reach : Nat → Pump → Bool) (speed ramp : Nat) :
    Drives s (s.givePumps reach speed ramp) := by
  refine ⟨rfl, rfl, fun h => (stoppedPumpsHold_iff _).2 fun i => ?_⟩
  have hi := (stoppedPumpsHold_iff s).1 h i
  rw [givePumps_get]
  split
  · exact give_zeroIfStopped hi speed ramp
  · exact hi

theorem zeroPumps_atZero (s : State) (i : Fin 8) : AtZero (s.zeroPumps.water.pumps.get i) := by
  simp [State.zeroPumps, AtZero, Pump.zero]

/-! ### Streams -/

theorem refill_plant (s : State) : plant s.refill = plant s := by
  unfold State.refill
  split
  · split <;> rfl
  · rfl

theorem startStream_plant (s : State) (i : Fin 4) (n : Nat) (track : Track) (position : Int) (gain : Nat) :
    plant (s.startStream i n track position gain) = plant s :=
  refill_plant ((s.idleStream i).onStream i fun t => t.load n track position gain)

theorem audioStart_plant (s : State) (i : Fin 4) (n : Nat) (position : Int) (gain : Nat) :
    plant (s.audioStart i n position gain) = plant s := by
  unfold State.audioStart
  split
  · exact startStream_plant ..
  · rfl

theorem audioStop_plant (s : State) (i : Fin 4) (fade : Nat) : plant (s.audioStop i fade) = plant s := by
  unfold State.audioStop
  split
  · rfl
  · rfl
  · rfl
  · split <;> rfl

theorem stopStreams_plant (s : State) : plant s.stopStreams = plant s := by
  simp only [State.stopStreams, audioStop_plant]

end Sys2Proof.Machine.PlantSafety
end

section
/-! SUPPORT. Reactions, the entry to IDLE, the abort and the entry to SAFE keep a safe plant (R49, R50, R171, R178). -/

namespace Sys2Proof.Machine.PlantSafety
open JetChannels

/-! ### Changes of state -/

theorem enterState_keeps {s : State} (hactive : s.seq.state ≠ .idle) (new : SeqState) : Keeps s (s.enterState new) :=
  .of_active hactive rfl id

/-- A pause finds a run in progress or does nothing (R43). -/
theorem pauseRun_keeps (s : State) : Keeps s s.pauseRun := by
  unfold State.pauseRun
  split
  · next h => exact .of_active (by simp [h]) rfl id
  · next h => exact .of_active (by simp [h]) rfl id
  · exact .refl s

/-! ### Once-effects at rest -/

/-- A property that the plant's fields decide and every once-effect keeps holds after a transition is handed on. -/
theorem reactWith_preserves {P : State → Prop} {once : ReactionKind → State → State}
    (hplant : ∀ {s t}, P s → plant t = plant s → P t) (honce : ∀ k s, P s → P (once k s)) (before : State)
    {s : State} (h : P s) : P (reactWith once before s) :=
  takeEach_keeps (P := P) (fun _ _ ht => hplant ht rfl)
    (fun a t ht => honce a.cfg.kind (t.tripNotice a) (hplant ht rfl)) _ _ (s.latchEdges before) (hplant h rfl)

theorem onceAtRest_state (k : ReactionKind) (s : State) : (onceAtRest k s).seq.state = s.seq.state := by
  unfold onceAtRest
  split
  · rfl
  · split <;> rfl
  · rfl

theorem onceAtRest_keeps (k : ReactionKind) {s : State} (hidle : s.seq.state = .idle) : Keeps s (onceAtRest k s) := by
  unfold onceAtRest
  split
  · exact .of_plant rfl
  · split
    · exact .of_held rfl hidle (zeroPumps_atZero _)
    · exact .refl s
  · exact .of_plant rfl

theorem onceAtRest_of_safe (k : ReactionKind) {s : State} (h : s.out.mode = .safe) : (onceAtRest k s).out = s.out := by
  unfold onceAtRest
  split
  · rfl
  · rw [State.live_eq_false h]
    rfl
  · rfl

/-! ### Entry to IDLE (R50) -/

theorem stopRun_keeps (s : State) : Keeps s s.stopRun := by
  refine ⟨fun h hsafe => ?_, id⟩
  obtain ⟨hpwm, -, hzero⟩ := h hsafe
  exact ⟨hpwm, rfl, hzero⟩

theorem enterIdle_idle (s : State) : s.enterIdle.seq.state = .idle :=
  reactWith_preserves (P := fun t => t.seq.state = .idle) (fun ht h => (congrArg (·.2.2.1) h).trans ht)
    (fun k t => (onceAtRest_state k t).trans) s rfl

theorem enterIdle_keeps (s : State) : Keeps s s.enterIdle := by
  have key : s.enterIdle.seq.state = .idle ∧ Keeps s s.enterIdle :=
    reactWith_preserves (P := fun t => t.seq.state = .idle ∧ Keeps s t)
      (fun ht h => ⟨(congrArg (·.2.2.1) h).trans ht.1, ht.2.congr_right h⟩)
      (fun k t ht => ⟨(onceAtRest_state k t).trans ht.1, ht.2.trans (onceAtRest_keeps k ht.1)⟩) s
      ⟨rfl, stopRun_keeps s⟩
  exact key.2

/-- The mode is SAFE and no PWM period is under way. -/
abbrev LinesSafe (s : State) : Prop := s.out.mode = .safe ∧ s.out.pwmOn = false

theorem enterIdle_linesSafe {s : State} (h : LinesSafe s) : LinesSafe s.enterIdle :=
  reactWith_preserves (P := LinesSafe)
    (fun ht h => ⟨(congrArg (·.1) h).trans ht.1, (congrArg (·.2.1) h).trans ht.2⟩)
    (fun k t ht => by rw [LinesSafe, onceAtRest_of_safe k ht.1]; exact ht) s h

/-! ### Abort and entry to SAFE (R49, R178) -/

theorem abortTargets_drives (s : State) : Drives s s.abortTargets := by
  have given := givePumps_drives ((s.emptyQueue.giveJets everyOne 0 0 .keep true).idleLooks 0) (fun _ _ => true) 0 0
  exact (given.congr_left (s' := s) rfl).congr_right rfl

theorem abort_keeps (s : State) (reason : EndReason) : Keeps s (s.abort reason) := by
  unfold State.abort
  split
  · exact .refl s
  · next h =>
    have hactive : s.seq.state ≠ .idle := by simpa [State.idle] using h
    have given : Drives s (s.withReason reason).abortTargets := (abortTargets_drives _).congr_left rfl
    exact (given.keeps hactive).trans (enterIdle_keeps _)

theorem abort_idle (s : State) (reason : EndReason) : (s.abort reason).seq.state = .idle := by
  unfold State.abort
  split
  · next h => exact (State.idle_iff s).1 h
  · exact enterIdle_idle _

theorem abort_linesSafe {s : State} (h : LinesSafe s) (reason : EndReason) : LinesSafe (s.abort reason) := by
  unfold State.abort
  split
  · exact h
  · exact enterIdle_linesSafe h

theorem enterSafe_linesSafe (s : State) : LinesSafe s.enterSafe :=
  abort_linesSafe (s := s.modeSafe) ⟨rfl, rfl⟩ .safe

theorem enterSafe_keeps (s : State) : Keeps s s.enterSafe :=
  .of_held (enterSafe_linesSafe s).2 (abort_idle s.modeSafe .safe) (zeroPumps_atZero _)

/-! ### Transitions handed to the Trip Unit (R171) -/

theorem onceEffect_keeps (k : ReactionKind) (s : State) : Keeps s (onceEffect k s) := by
  unfold onceEffect
  split
  · exact .of_plant rfl
  · exact pauseRun_keeps s
  · exact abort_keeps s _
  · split
    · exact enterSafe_keeps s
    · exact .refl s
  · exact .refl s

theorem reactFrom_keeps (s before : State) : Keeps s (s.reactFrom before) :=
  reactWith_preserves (P := Keeps s) (fun ht h => ht.congr_right h)
    (fun k t ht => ht.trans (onceEffect_keeps k t)) before (.refl s)

end Sys2Proof.Machine.PlantSafety
end

section
/-! SUPPORT. The run of a show and the Show Clock keep a safe plant: they act on it only while a run is in progress, and
no run is in progress in SAFE (R40 to R59, R178). -/

namespace Sys2Proof.Machine.PlantSafety

/-! ### The ending sequence and the natural end (R45 to R47) -/

theorem judgeEnd_keeps (s : State) : Keeps s s.judgeEnd := by
  unfold State.judgeEnd
  split
  · exact enterIdle_keeps s
  · exact .refl s

theorem armIfFollowing_plant (s : State) : plant s.armIfFollowing = plant s := by
  unfold State.armIfFollowing
  split <;> rfl

theorem endingTargets_drives (s : State) : Drives s s.endingTargets := by
  have given := givePumps_drives
    ((s.emptyQueue.giveJets everyOne 0 s.seq.run.endFade .keep false).idleLooks s.seq.run.endFade) (fun _ _ => true) 0 0
  exact (given.congr_right (stopStreams_plant _)).congr_left rfl

theorem enterEnding_keeps {s : State} (hactive : s.seq.state ≠ .idle) (reason : EndReason) :
    Keeps s (s.enterEnding reason) := by
  have given : Drives s (s.withReason reason).endingTargets.armIfFollowing :=
    ((endingTargets_drives (s.withReason reason)).congr_right (armIfFollowing_plant _)).congr_left rfl
  exact .of_active hactive given.mode given.stopped

theorem beginEnding_keeps {s : State} (hactive : s.seq.state ≠ .idle) (reason : EndReason) :
    Keeps s (s.beginEnding reason) :=
  (enterEnding_keeps hactive reason).trans (judgeEnd_keeps _)

theorem judgeNaturalEnd_keeps (s : State) : Keeps s s.judgeNaturalEnd := by
  unfold State.judgeNaturalEnd
  split
  · next h =>
    have hplaying : s.seq.state = .playing := by simp [State.atNaturalEnd] at h; exact h.1.1.1
    exact beginEnding_keeps (by simp [hplaying]) .natural
  · exact .refl s

/-! ### The reader and the issue event (R51 to R59) -/

theorem deliver_drives (s : State) (c : Cue) (nominal : Int) : Drives s (s.deliver c nominal) := by
  unfold State.deliver
  split
  · exact .of_plant rfl
  · exact givePumps_drives s _ _ _
  · exact .of_plant rfl
  · exact .of_plant (audioStart_plant ..)
  · exact .of_plant (audioStop_plant ..)
  · exact .of_plant rfl
  · exact .of_plant rfl
  · exact .of_plant rfl
  · exact .of_plant rfl

theorem takeFlag_plant (s : State) (c : Cue) : plant (s.takeFlag c) = plant s := by
  unfold State.takeFlag
  split <;> rfl

theorem issueEntry_drives (s : State) (e : QueueEntry) : Drives s (s.issueEntry e) := by
  unfold State.issueEntry
  split
  · have issued := (deliver_drives (s.takeFlag e.action) e.action e.nominal).congr_left (takeFlag_plant s e.action)
    exact issued.congr_right rfl
  · exact .of_plant rfl

theorem issueHead_drives (s : State) : Drives s s.issueHead := by
  unfold State.issueHead
  split
  · next es _ =>
    exact (issueEntry_drives { s with seq := { s.seq with queue := es } } _).congr_left rfl
  · exact .of_plant rfl

theorem issueDue_drives (fuel : Nat) (s : State) : Drives s (issueDue fuel s) := by
  induction fuel generalizing s with
  | zero => exact .of_plant rfl
  | succ fuel ih =>
    unfold issueDue
    split
    · exact (issueHead_drives s).trans (ih _)
    · exact .of_plant rfl

theorem active_of_headDue {s : State} (h : s.headDue = true) : s.seq.state ≠ .idle := by
  intro hidle
  simp [State.headDue, hidle, SeqState.issuing] at h

theorem readCue_plant (s : State) (c : Cue) : plant (s.readCue c) = plant s := by
  unfold State.readCue
  split
  · simp only [State.readLoop]
    split
    · rfl
    · split <;> rfl
  · simp only [State.readEntry, State.reportLate]
    split <;> rfl

theorem readAndIssue_keeps (fuel : Nat) (s : State) : Keeps s (readAndIssue fuel s) := by
  induction fuel generalizing s with
  | zero => exact .refl s
  | succ fuel ih =>
    unfold readAndIssue
    split
    · next hdue => exact ((issueHead_drives s).keeps (active_of_headDue hdue)).trans (ih _)
    · split
      · exact (ih _).congr_left (readCue_plant s _)
      · exact .refl s

theorem settle_keeps (s : State) : Keeps s s.settle := (readAndIssue_keeps _ s).trans (judgeNaturalEnd_keeps _)

/-! ### New values of show position (R42, R46, R48) -/

theorem active_of_atCeiling {s : State} (h : s.atCeiling = true) : s.seq.state ≠ .idle := by
  intro hidle
  simp [State.atCeiling, hidle] at h

theorem meetCeiling_keeps {s : State} (hactive : s.seq.state ≠ .idle) : Keeps s s.meetCeiling := by
  have chosen : Drives s (s.chooseBelow 2).2 := .of_plant rfl
  have issued := chosen.trans (issueDue_drives (s.chooseBelow 2).2.seq.queue.length _)
  simp only [State.meetCeiling]
  by_cases hdue : s.headDue = true
  · by_cases hk : (s.chooseBelow 2).1 = 0
    · rw [if_pos hdue, if_pos hk]
      exact (issued.keeps hactive).trans (enterEnding_keeps (issued.active hactive) .ceiling)
    · rw [if_pos hdue, if_neg hk]
      exact (chosen.keeps hactive).trans (enterEnding_keeps (chosen.active hactive) .ceiling)
  · rw [if_neg hdue]
    exact enterEnding_keeps hactive .ceiling

theorem judgePreroll_keeps (s : State) : Keeps s s.judgePreroll := by
  unfold State.judgePreroll
  split
  · next h => exact enterState_keeps (by simp [h.1]) .playing
  · exact .refl s

theorem judgeStarts_plant (s : State) : plant s.judgeStarts = plant s := by
  unfold State.judgeStarts
  split <;> rfl

theorem newPosition_keeps (s : State) : Keeps s s.newPosition := by
  have judged : Keeps s s.judgePreroll.judgeEnd.judgeStarts :=
    ((judgePreroll_keeps s).trans (judgeEnd_keeps _)).congr_right (judgeStarts_plant _)
  simp only [State.newPosition]
  split
  · next h => exact judged.trans ((meetCeiling_keeps (active_of_atCeiling h)).trans (judgeEnd_keeps _))
  · exact judged.trans (settle_keeps _)

/-! ### The Show Clock's events (R5 to R11) -/

theorem tick_keeps (s : State) : Keeps s (tick s) := by
  have counted : Keeps s s.advanceTime.holdFades := .of_plant rfl
  simp only [tick]
  split
  · exact counted.trans ((newPosition_keeps (s.advanceTime.holdFades.movePosition 1)).congr_left rfl)
  · exact counted

theorem afterHoldOver_keeps (h s : State) : Keeps h (h.afterHoldOver s) := by
  unfold State.afterHoldOver
  split
  · next hc =>
    have started : Drives h h.judgeStarts := .of_plant (judgeStarts_plant h)
    have hactive := active_of_atCeiling hc
    exact ((started.keeps hactive).trans (meetCeiling_keeps (started.active hactive))).trans
      ((reactFrom_keeps _ s).trans (judgeEnd_keeps _))
  · exact (reactFrom_keeps h s).trans (newPosition_keeps _)

theorem expireStep_keeps (s : State) : Keeps s (expireStep s) := by
  unfold expireStep
  split
  · exact (afterHoldOver_keeps s.holdOver s).congr_left rfl
  · exact .refl s

theorem stepEvent_keeps (s : State) : Keeps s s.stepEvent := by
  simp only [State.stepEvent]
  split
  · split
    · exact (reactFrom_keeps _ s).congr_left rfl
    · exact (newPosition_keeps _).congr_left rfl
    · exact .refl s
  · exact .refl s

theorem markEvent_keeps (s : State) : Keeps s s.markEvent := by
  unfold State.markEvent
  split
  · simp only [State.snap]
    split
    · exact .of_plant rfl
    · exact (newPosition_keeps _).congr_left rfl
  · exact .refl s

/-! ### The Sequencer's requests (R41 to R49) -/

theorem startMusic_plant (s : State) (track : Option Nat) : plant (s.startMusic track) = plant s := by
  unfold State.startMusic
  split
  · split
    · exact startStream_plant ..
    · rfl
  · rfl

/-- A run starts in LIVE only (R41, check 3). -/
theorem startRun_keeps {s : State} (hlive : s.out.mode = .live) (n : Nat) (e : ShowEntry) :
    Keeps s (s.startRun n e) := by
  have begun : Drives
      (({ s with seq := s.seq.begin n e, clock := s.clock.begin e } : State).clearAudioCounts.splitPool e.effects) _ :=
    .of_plant (startMusic_plant _ e.track)
  exact .of_live (begun.mode.trans hlive) begun.stopped

theorem startShow_keeps (tag number : Byte) (s : State) : Keeps s (startShow tag number s) := by
  unfold startShow
  split
  · exact .of_plant rfl
  · split
    · exact .of_plant rfl
    · split
      · exact .of_plant rfl
      · next hlive =>
        simp only
        split
        · exact .of_plant rfl
        · split
          · exact .of_plant rfl
          · have started := startRun_keeps (s := s) (by simpa [State.live] using hlive)
            exact (started _ _).trans (((reactFrom_keeps _ s).trans (settle_keeps _)).congr_right rfl)

theorem pauseShow_keeps (tag : Byte) (s : State) : Keeps s (pauseShow tag s) := by
  unfold pauseShow
  split
  · exact (pauseRun_keeps s).congr_right rfl
  · exact .of_plant rfl

theorem resumeRun_keeps {s : State} (hactive : s.seq.state ≠ .idle) : Keeps s s.resumeRun := by
  have resumed : Drives s (s.armIfFollowing.onStreams Stream.resume) := .of_plant (armIfFollowing_plant s)
  exact (resumed.keeps hactive).trans ((enterState_keeps (resumed.active hactive) _).trans (settle_keeps _))

theorem resumeShow_keeps (tag : Byte) (s : State) : Keeps s (resumeShow tag s) := by
  unfold resumeShow
  split
  · next h => exact (resumeRun_keeps (by simp [h])).congr_right rfl
  · exact .of_plant rfl

theorem stopShow_keeps (tag : Byte) (s : State) : Keeps s (stopShow tag s) := by
  unfold stopShow
  split
  · next h =>
    have hactive : s.seq.state ≠ .idle := fun hidle => by simp [hidle, SeqState.reading] at h
    exact (beginEnding_keeps hactive .stopRequest).congr_right rfl
  · exact .of_plant rfl

theorem abortShow_keeps (tag : Byte) (s : State) : Keeps s (abortShow tag s) := by
  unfold abortShow
  split
  · exact .of_plant rfl
  · exact (abort_keeps s .abortRequest).congr_right rfl

end Sys2Proof.Machine.PlantSafety
end

section
/-! SUPPORT. The drive link, the Wind Governor, the Trip Unit, the Playback Unit, the flash and the Output Matrix keep a
safe plant (R89 to R102, R119, R144 to R164, R177). -/

namespace Sys2Proof.Machine.PlantSafety

/-! ### The drive link (R94 to R101) -/

theorem failPump_keeps (s : State) (p : Fin 8) (code : FaultCode) : Keeps s (s.failPump p code) := by
  have failed : Keeps s (s.onPump p fun x => { x with live := x.live.fail code }) :=
    onPump_keeps (.of_atZero ⟨rfl, rfl⟩)
  exact failed.trans ((reactFrom_keeps _ s).congr_left rfl)

theorem pollPump_keeps (s : State) (p : Fin 8) : Keeps s (s.pollPump p) := by
  have polled : Keeps s (s.onPump p fun _ =>
      ((s.water.pumps.get p).judgeLock (s.pumpLocked (s.water.pumps.get p).cfg.manifold)).ramp) :=
    onPump_keeps ((judgeLock_kept _ _).trans (ramp_kept _))
  exact polled.trans ((reactFrom_keeps _ s).congr_left rfl)

theorem startSlot_keeps (s : State) : Keeps s (startSlot s) := by
  simp only [startSlot]
  split
  · exact pollPump_keeps s _
  · exact .of_plant rfl

theorem takeReply_keeps (s : State) (p : Fin 8) (r : DriveAnswer) : Keeps s (s.takeReply p r) := by
  have recorded : Keeps s (s.onPump p (·.record r)) := onPump_keeps ⟨id, id⟩
  simp only [State.takeReply]
  split
  · split
    · exact recorded.trans (failPump_keeps _ p _)
    · exact recorded.trans (onPump_keeps (transition_kept _ _))
  · exact recorded

theorem takeMiss_keeps (s : State) (p : Fin 8) : Keeps s (s.takeMiss p) := by
  have missed : Keeps s (s.onPump p Pump.recordMiss) := onPump_keeps ⟨id, id⟩
  simp only [State.takeMiss]
  split
  · exact missed.trans (failPump_keeps _ p .linkLost)
  · exact missed

theorem receiveReply_keeps (bs : List Byte) (s : State) : Keeps s (receiveReply bs s) := by
  unfold receiveReply
  split
  · split
    · exact (takeReply_keeps s.closeExchange _ _).congr_left rfl
    · split
      · exact (takeMiss_keeps s.closeExchange _).congr_left rfl
      · exact .refl s
  · exact .refl s

theorem missReply_keeps (s : State) : Keeps s (missReply s) := by
  unfold missReply
  split
  · exact (takeMiss_keeps s.closeExchange _).congr_left rfl
  · exact .refl s

theorem expireStart_keeps (p : Fin 8) (s : State) : Keeps s (expireStart p s) := by
  simp only [expireStart]
  split
  · exact failPump_keeps s p .startTimeout
  · exact .refl s

/-! ### The Pump Controller's requests (R89, R92, R100) -/

theorem rewritePump_keeps (s : State) (p : Fin 8) (cfg : PumpCfg) : Keeps s (s.rewritePump p cfg) := by
  have rewritten : Keeps s (s.onPump p fun _ => { cfg := cfg, live := .fresh cfg }) :=
    onPump_keeps (.of_atZero ⟨rfl, rfl⟩)
  exact rewritten.congr_right rfl

theorem configurePump_keeps (tag : Byte) (a : PumpArgs) (s : State) : Keeps s (configurePump tag a s) := by
  unfold configurePump
  split
  · exact .of_plant rfl
  · split
    · split
      · exact .of_plant rfl
      · exact ((rewritePump_keeps s _ _).trans (reactFrom_keeps _ s)).congr_right rfl
    · exact .of_plant rfl

theorem setPumps_keeps (tag : Byte) (a : PumpSetArgs) (s : State) : Keeps s (setPumps tag a s) := by
  unfold setPumps
  split
  · exact .of_plant rfl
  · split
    · split
      · exact .of_plant rfl
      · next hlive =>
        exact .of_live (by simpa [State.live] using hlive) (givePumps_drives s _ _ _).stopped
    · exact .of_plant rfl

theorem clearPump_keeps (tag pump : Byte) (s : State) : Keeps s (clearPump tag pump s) := by
  unfold clearPump
  split
  · exact .of_plant rfl
  · next p _ =>
    simp only
    split
    · exact .of_plant rfl
    · split
      · exact .of_plant rfl
      · have cleared : Keeps s (s.onPump p fun x => { x with live := x.live.clear }) :=
          onPump_keeps (.of_atZero ⟨rfl, rfl⟩)
        exact (cleared.trans (reactFrom_keeps _ s)).congr_right rfl

/-! ### The Wind Governor (R114 to R119) -/

theorem changeBand_keeps (s : State) (cause : WindCause) (b : Nat) : Keeps s (s.changeBand cause b) :=
  (reactFrom_keeps _ s).congr_left rfl

theorem judgeBand_keeps (s : State) : Keeps s s.judgeBand := by
  rcases WindGovernor.judgeBand_cases s with ⟨n, h⟩ | ⟨cause, b, h⟩
  · exact .of_plant (h ▸ rfl)
  · exact h ▸ (changeBand_keeps _ cause b).congr_left rfl

theorem endGate_keeps (s : State) : Keeps s (endGate s) := by
  simp only [endGate]
  split
  · split
    · have judged : Keeps s (s.onWind WindGov.closeGate).judgeBand := (judgeBand_keeps _).congr_left rfl
      exact judged.congr_right rfl
    · exact .of_plant rfl
  · exact .refl s

theorem setManualBand_keeps (s : State) (b : Nat) : Keeps s (s.setManualBand b) := by
  simp only [State.setManualBand]
  split
  · exact .of_plant rfl
  · exact (changeBand_keeps _ .manual b).congr_left rfl

theorem setBand_keeps (tag band : Byte) (s : State) : Keeps s (setBand tag band s) := by
  unfold setBand
  split
  · exact .of_plant rfl
  · exact (setManualBand_keeps s _).congr_right rfl

theorem takeMode_keeps (s : State) (was : Bool) : Keeps s (s.takeMode was) := by
  simp only [State.takeMode]
  split
  · split
    · exact .refl s
    · exact .of_plant rfl
  · split
    · split
      · exact .of_plant rfl
      · exact (changeBand_keeps _ .mode _).congr_left rfl
    · exact .refl s

/-! ### The Trip Unit (R162 to R164) -/

theorem serveIfRisen_keeps (s before : State) (c : Fin 24) : Keeps s (s.serveIfRisen before c) := by
  unfold State.serveIfRisen State.serveRole
  split
  · split
    · exact .refl s
    · exact stepEvent_keeps s
    · exact markEvent_keeps s
    · exact .of_plant rfl
  · exact .refl s

theorem sampleCondition_keeps (c : Fin 24) (s : State) : Keeps s (sampleCondition c s) := by
  simp only [sampleCondition]
  split
  · exact ((reactFrom_keeps _ s).trans (serveIfRisen_keeps _ s c)).congr_left rfl
  · exact .refl s

theorem serveEach_keeps (before : State) (xs : List (Fin 24 × ConditionCfg)) (s : State) :
    Keeps s (xs.foldl (fun t x => t.serveIfRisen before x.1) s) := by
  induction xs generalizing s with
  | nil => exact .refl s
  | cons x xs ih => exact (serveIfRisen_keeps s before x.1).trans (ih _)

theorem takeSettings_keeps (s : State) (xs : List (Fin 24 × ConditionCfg)) : Keeps s (s.takeSettings xs) := by
  have reacted : Keeps s ((s.seedSettings xs).reactFrom s) := (reactFrom_keeps _ s).congr_left rfl
  exact (reacted.trans (serveEach_keeps s xs _)).trans (takeMode_keeps _ _)

theorem configureInputs_keeps (tag : Byte) (payload : List Byte) (s : State) :
    Keeps s (configureInputs tag payload s) := by
  unfold configureInputs
  split
  · exact .of_plant rfl
  · split
    · exact .of_plant rfl
    · split
      · exact .of_plant rfl
      · split
        · exact .of_plant rfl
        · exact (takeSettings_keeps s _).congr_right rfl

/-! ### The Playback Unit's events (R144, R148, R151) -/

theorem underrun_plant (s : State) (i : Fin 4) : plant (s.underrun i) = plant s := rfl

theorem resync_plant (s : State) : plant s.resync = plant s := by
  simp only [State.resync]
  split <;> rfl

theorem judgeBoundary_plant (s : State) (i : Fin 4) : plant (s.judgeBoundary i).1 = plant s := by
  unfold State.judgeBoundary
  split
  · exact resync_plant s
  · split
    · exact underrun_plant s i
    · rfl

theorem streamFrame_plant (s : State) (i : Fin 4) : plant (s.streamFrame i).2 = plant s := by
  have judged : plant (if (s.audio.streams.get i).boundary then s.judgeBoundary i else (s, .none)).1 = plant s := by
    split
    · exact judgeBoundary_plant s i
    · rfl
  simp only [State.streamFrame]
  generalize (if (s.audio.streams.get i).boundary then s.judgeBoundary i else (s, .none)) = b at judged ⊢
  split
  · split
    · simp only
      split
      · exact judged
      · exact judged
    · exact judged
  · rfl

theorem giveFrames_plant (s : State) : plant s.giveFrames.2 = plant s := by
  simp only [State.giveFrames, streamFrame_plant]

theorem outputFrame_keeps (s : State) : Keeps s (outputFrame s) := by
  refine (judgeNaturalEnd_keeps _).congr_left ((refill_plant _).trans ?_)
  exact giveFrames_plant s

theorem endStopFade_keeps (i : Fin 4) (s : State) : Keeps s (endStopFade i s) := by
  simp only [endStopFade]
  split
  · exact (judgeNaturalEnd_keeps (s.idleStream i)).congr_left rfl
  · exact .refl s

theorem completeRead_plant (s : State) : plant (completeRead s) = plant s := by
  unfold completeRead
  split
  · refine (refill_plant _).trans ?_
    unfold State.fillSlot
    split <;> rfl
  · rfl

theorem takeEnvelope_plant (s : State) : plant (takeEnvelope s) = plant s := by
  unfold takeEnvelope
  split <;> rfl

/-! ### The flash (R159, R198) -/

theorem holdInterface_plant (s : State) : plant (holdInterface s) = plant s := by
  unfold holdInterface
  split
  · split <;> rfl
  · rfl

theorem completeFlash_plant (s : State) (o : FlashOp) (status : Status) (fields : List Byte) :
    plant (s.completeFlash o status fields) = plant s := refill_plant _

theorem spoilJob_plant (s : State) (job : FlashJob) : plant (s.spoilJob job) = plant s := by
  rw [State.spoilJob_frame]

theorem failFlash_plant (s : State) (o : FlashOp) : plant (s.failFlash o) = plant s :=
  (completeFlash_plant _ o _ _).trans (spoilJob_plant s o.job)

theorem advanceSave_plant (s : State) (o : FlashOp) (image : Image) (phase : SavePhase) :
    plant (s.advanceSave o image phase) = plant s := by
  unfold State.advanceSave
  split
  · rfl
  · exact completeFlash_plant ..

theorem succeedFlash_plant (s : State) (o : FlashOp) : plant (s.succeedFlash o) = plant s := by
  unfold State.succeedFlash
  split
  · exact completeFlash_plant ..
  · exact completeFlash_plant ..
  · exact completeFlash_plant ..
  · exact advanceSave_plant ..

theorem reportFlash_plant (ok : Bool) (s : State) : plant (reportFlash ok s) = plant s := by
  unfold reportFlash
  split
  · split
    · split
      · exact succeedFlash_plant s _
      · exact failFlash_plant s _
    · rfl
  · rfl

theorem expireFlash_plant (s : State) : plant (expireFlash s) = plant s := by
  unfold expireFlash
  split
  · split
    · exact failFlash_plant s _
    · rfl
  · rfl

theorem abandonFlash_plant (s : State) : plant s.abandonFlash = plant s := by
  rw [State.abandonFlash_frame]

/-! ### Updates, frames and periods (R76, R120, R132, R183) -/

theorem updateManifold_plant (m : Manifold) (s : State) : plant (updateManifold m s) = plant s := by
  simp only [updateManifold]
  split <;> rfl

theorem stepTrims_plant (s : State) : plant (stepTrims s) = plant s := by
  unfold stepTrims
  split <;> rfl

theorem sendLightingFrame_plant (s : State) : plant (sendLightingFrame s) = plant s := by
  simp only [sendLightingFrame]
  split <;> rfl

/-- In SAFE no period starts (R183). -/
theorem startPeriod_keeps (s : State) : Keeps s (startPeriod s) := by
  refine ⟨fun h hsafe => ?_, id⟩
  obtain ⟨-, hidle, hzero⟩ := h hsafe
  exact ⟨JetChannels.State.live_eq_false hsafe, hidle, hzero⟩

theorem setPlant_keeps (tag code : Byte) (s : State) : Keeps s (setPlant tag code s) := by
  unfold setPlant State.setMode
  split
  · exact .of_plant rfl
  · split
    · exact .of_plant rfl
    · split
      · split
        · exact (enterSafe_keeps s).congr_right rfl
        · exact .of_plant rfl
      · split
        · exact .of_plant rfl
        · exact .of_live rfl id

end Sys2Proof.Machine.PlantSafety
end

section
/-! SUPPORT. Every command keeps a safe plant, by its kind: a request through its owner, an event, a reset
(R176, R188, R199). -/

namespace Sys2Proof.Machine.PlantSafety

/-! ### Requests that leave the plant as it stands -/

section
variable (tag : Byte) (s : State)

theorem saveImage_plant : plant (saveImage tag s) = plant s := by
  unfold saveImage
  split <;> rfl

theorem busyReply_plant (kind : Byte) : plant (s.busyReply kind tag) = plant s := by
  unfold State.busyReply
  split <;> rfl

theorem configureClock_plant (x : Half) : plant (configureClock tag x s) = plant s := by
  unfold configureClock
  split
  · rfl
  · split <;> rfl

theorem openShow_plant (a : ShowOpenArgs) : plant (openShow tag a s) = plant s := by
  unfold openShow
  split
  · rfl
  · split
    · split
      · rfl
      · split <;> rfl
    · rfl

theorem appendRecords_plant (n : Byte) (rs : List (List Byte)) : plant (appendRecords tag n rs s) = plant s := by
  unfold appendRecords
  split
  · rfl
  · split
    · rfl
    · split
      · rfl
      · split <;> rfl

theorem appendShow_plant (p : List Byte) : plant (appendShow tag p s) = plant s := by
  unfold appendShow
  split
  · rfl
  · split
    · rfl
    · exact appendRecords_plant ..

theorem sealShow_plant (n : Byte) : plant (sealShow tag n s) = plant s := by
  unfold sealShow
  split
  · rfl
  · split
    · rfl
    · simp only
      split
      · rfl
      · split <;> rfl

theorem eraseShow_plant (n : Byte) : plant (eraseShow tag n s) = plant s := by
  unfold eraseShow
  split
  · rfl
  · split <;> rfl

theorem configureChannel_plant (a : ChannelArgs) : plant (configureChannel tag a s) = plant s := by
  unfold configureChannel
  split
  · rfl
  · split
    · rfl
    · split <;> rfl

theorem configureJetGroup_plant (a : JetGroupArgs) : plant (configureJetGroup tag a s) = plant s := by
  unfold configureJetGroup
  split
  · rfl
  · split
    · split <;> rfl
    · rfl

theorem setJets_plant (a : JetSetArgs) : plant (setJets tag a s) = plant s := by
  unfold setJets
  split
  · rfl
  · split <;> rfl

theorem configureManifold_plant (m : Byte) (r : Half) : plant (configureManifold tag m r s) = plant s := by
  unfold configureManifold
  split
  · rfl
  · split
    · split <;> rfl
    · rfl

theorem configureWind_plant (a : WindArgs) : plant (configureWind tag a s) = plant s := by
  unfold configureWind
  split
  · rfl
  · split
    · rfl
    · split <;> rfl

theorem configureFixture_plant (a : FixtureArgs) : plant (configureFixture tag a s) = plant s := by
  unfold configureFixture
  split
  · rfl
  · split
    · split <;> rfl
    · rfl

theorem configureFixtureGroup_plant (a : FixtureGroupArgs) : plant (configureFixtureGroup tag a s) = plant s := by
  unfold configureFixtureGroup
  split
  · rfl
  · split
    · split <;> rfl
    · rfl

theorem configureLighting_plant (a : LightingArgs) : plant (configureLighting tag a s) = plant s := by
  unfold configureLighting
  split
  · rfl
  · split <;> rfl

theorem setFixtures_plant (a : FixtureSetArgs) : plant (setFixtures tag a s) = plant s := by
  unfold setFixtures
  split
  · rfl
  · split <;> rfl

theorem defineTrack_plant (a : TrackArgs) : plant (defineTrack tag a s) = plant s := by
  unfold defineTrack
  split
  · rfl
  · split
    · split
      · rfl
      · split <;> rfl
    · rfl

theorem configureAudio_plant (g : Half) (r : Byte) : plant (configureAudio tag g r s) = plant s := by
  unfold configureAudio
  split <;> rfl

theorem eraseFlash_plant (a : Quad) : plant (eraseFlash tag a s) = plant s := by
  unfold eraseFlash
  split
  · exact busyReply_plant ..
  · split <;> rfl

theorem writeFlash_plant (a : Quad) (d : List Byte) : plant (writeFlash tag a d s) = plant s := by
  unfold writeFlash
  split
  · rfl
  · split
    · exact busyReply_plant ..
    · split <;> rfl

theorem readFlash_plant (a : Quad) (n : Half) : plant (readFlash tag a n s) = plant s := by
  unfold readFlash
  split
  · exact busyReply_plant ..
  · split <;> rfl

theorem configureReaction_plant (a : ReactionArgs) : plant (configureReaction tag a s) = plant s := by
  unfold configureReaction
  split
  · rfl
  · split
    · split <;> rfl
    · rfl

theorem clearTrip_plant (n : Byte) : plant (clearTrip tag n s) = plant s := by
  unfold clearTrip
  split
  · rfl
  · simp only
    split
    · rfl
    · split <;> rfl

theorem configureOutput_plant (a : OutputArgs) : plant (configureOutput tag a s) = plant s := by
  unfold configureOutput
  split
  · rfl
  · split <;> rfl

theorem showInfo_plant (n : Byte) : plant (showInfo tag n s) = plant s := by
  unfold showInfo
  split <;> rfl

theorem readChannel_plant (n : Byte) : plant (readChannel tag n s) = plant s := by
  unfold readChannel
  split <;> rfl

theorem readJetGroup_plant (n : Byte) : plant (readJetGroup tag n s) = plant s := by
  unfold readJetGroup
  split <;> rfl

theorem readPump_plant (n : Byte) : plant (readPump tag n s) = plant s := by
  unfold readPump
  split <;> rfl

theorem readManifold_plant (n : Byte) : plant (readManifold tag n s) = plant s := by
  unfold readManifold
  split <;> rfl

theorem readFixture_plant (n : Byte) : plant (readFixture tag n s) = plant s := by
  unfold readFixture
  split <;> rfl

theorem readFixtureGroup_plant (n : Byte) : plant (readFixtureGroup tag n s) = plant s := by
  unfold readFixtureGroup
  split <;> rfl

theorem readTrack_plant (n : Byte) : plant (readTrack tag n s) = plant s := by
  unfold readTrack
  split <;> rfl

theorem readStream_plant (n : Byte) : plant (readStream tag n s) = plant s := by
  unfold readStream
  split <;> rfl

end

/-- Every owner's decision keeps a safe plant (R188, step 5). -/
theorem owner_keeps (i : Instr) (s : State) : Keeps s (owner i s) := by
  cases i with
  | showStart t n => exact startShow_keeps t n s
  | showPause t => exact pauseShow_keeps t s
  | showResume t => exact resumeShow_keeps t s
  | showStop t => exact stopShow_keeps t s
  | showAbort t => exact abortShow_keeps t s
  | pumpConfig t a => exact configurePump_keeps t a s
  | pumpSet t a => exact setPumps_keeps t a s
  | pumpClear t n => exact clearPump_keeps t n s
  | windBandSet t b => exact setBand_keeps t b s
  | inputConfig t p => exact configureInputs_keeps t p s
  | setPlant t c => exact setPlant_keeps t c s
  | saveImage t => exact .of_plant (saveImage_plant t s)
  | clockConfig t x => exact .of_plant (configureClock_plant t s x)
  | showOpen t a => exact .of_plant (openShow_plant t s a)
  | showAppend t p => exact .of_plant (appendShow_plant t s p)
  | showSeal t n => exact .of_plant (sealShow_plant t s n)
  | showErase t n => exact .of_plant (eraseShow_plant t s n)
  | channelConfig t a => exact .of_plant (configureChannel_plant t s a)
  | jetGroupConfig t a => exact .of_plant (configureJetGroup_plant t s a)
  | jetSet t a => exact .of_plant (setJets_plant t s a)
  | manifoldConfig t m r => exact .of_plant (configureManifold_plant t s m r)
  | windConfig t a => exact .of_plant (configureWind_plant t s a)
  | fixtureConfig t a => exact .of_plant (configureFixture_plant t s a)
  | fixtureGroupConfig t a => exact .of_plant (configureFixtureGroup_plant t s a)
  | lightingConfig t a => exact .of_plant (configureLighting_plant t s a)
  | fixtureSet t a => exact .of_plant (setFixtures_plant t s a)
  | trackDefine t a => exact .of_plant (defineTrack_plant t s a)
  | audioConfig t g r => exact .of_plant (configureAudio_plant t s g r)
  | flashErase t a => exact .of_plant (eraseFlash_plant t s a)
  | flashWrite t a d => exact .of_plant (writeFlash_plant t s a d)
  | flashRead t a n => exact .of_plant (readFlash_plant t s a n)
  | reactionConfig t a => exact .of_plant (configureReaction_plant t s a)
  | tripClear t n => exact .of_plant (clearTrip_plant t s n)
  | outputConfig t a => exact .of_plant (configureOutput_plant t s a)
  | showInfo t n => exact .of_plant (showInfo_plant t s n)
  | channelRead t n => exact .of_plant (readChannel_plant t s n)
  | jetGroupRead t n => exact .of_plant (readJetGroup_plant t s n)
  | pumpRead t n => exact .of_plant (readPump_plant t s n)
  | manifoldRead t m => exact .of_plant (readManifold_plant t s m)
  | fixtureRead t n => exact .of_plant (readFixture_plant t s n)
  | fixtureGroupRead t n => exact .of_plant (readFixtureGroup_plant t s n)
  | trackRead t n => exact .of_plant (readTrack_plant t s n)
  | streamRead t n => exact .of_plant (readStream_plant t s n)
  | _ => exact .of_plant rfl

/-! ### Requests and events -/

theorem transmit_keeps {s t : State} (h : Keeps s t) : Keeps s t.transmit := h.congr_right rfl

theorem event_keeps {f : State → State} (h : ∀ s, Keeps s (f s)) (s : State) : Keeps s (s.event f) := by
  unfold State.event
  split
  · exact transmit_keeps ((h s.transmit).congr_left rfl)
  · exact .refl s

theorem happens_keeps {f : State → State} (h : ∀ s, Keeps s (f s)) {s t : State} (hst : happens f s = .next t) :
    Keeps s t := by
  cases hst
  exact event_keeps h s

theorem judged_keeps {owner : State → State} (h : ∀ s, Keeps s (owner s)) (kind tag : Byte) (s : State) :
    Keeps s (s.judged kind tag owner) := by
  unfold State.judged
  split
  · exact .refl s
  · split
    · exact .of_plant (busyReply_plant tag s kind)
    · exact h s

theorem request_keeps {owner : State → State} (h : ∀ s, Keeps s (owner s)) {kind tag : Byte} {s t : State}
    (hst : request kind tag owner s = .next t) : Keeps s t :=
  happens_keeps (f := fun s => s.hunt.judged kind tag owner)
    (fun s => (judged_keeps h kind tag s.hunt).congr_left rfl) hst

/-- Every request is judged and decided by its owner (R188). -/
theorem exec_of_request {i : Instr} {f : Byte × Byte × List Byte} (hf : encodeRequest i = some f) (s : State) :
    exec i s = request f.1 f.2.1 (owner i) s := by
  cases i <;> cases hf <;> rfl

/-! ### The receive side (R186, R188) -/

theorem dispatch_keeps (kind tag : Byte) (payload : List Byte) (s : State) : Keeps s (dispatch kind tag payload s) := by
  unfold dispatch
  split
  · exact .of_plant rfl
  · exact .of_plant rfl
  · exact owner_keeps _ s

theorem receiveFrame_keeps (kind tag : Byte) (payload : List Byte) (s : State) :
    Keeps s (receiveFrame kind tag payload s) := by
  unfold receiveFrame
  split
  · exact .of_plant rfl
  · exact (judged_keeps (dispatch_keeps kind tag payload) kind tag s.hunt).congr_left rfl

theorem finishFrame_keeps (buffer : List Byte) (s : State) : Keeps s (finishFrame buffer s) := by
  simp only [finishFrame]
  split
  · exact receiveFrame_keeps ..
  · exact .of_plant rfl

theorem placeByte_keeps (buffer : List Byte) (s : State) : Keeps s (placeByte buffer s) := by
  unfold placeByte
  split
  · exact .of_plant rfl
  · split
    · exact .of_plant rfl
    · split
      · exact .of_plant rfl
      · exact finishFrame_keeps buffer s

theorem receiveByte_keeps (b : Byte) (s : State) : Keeps s (receiveByte b s) := by
  unfold receiveByte
  split
  · split
    · exact .of_plant rfl
    · exact .refl s
  · exact placeByte_keeps _ s

/-! ### Reset and start-up (R176, R199) -/

theorem freshBlocks_atZero (s : State) (img : Image) (now : PlantTime) (i : Fin 8) :
    AtZero ((s.freshBlocks img now).water.pumps.get i) := by
  simp [State.freshBlocks, WaterUnit.fresh, PumpLive.fresh, AtZero]

theorem beginReset_keeps (s : State) : Keeps s s.beginReset :=
  .of_held rfl rfl (freshBlocks_atZero s.abandonFlash s.configuration 0)

theorem startUp_keeps (baud : Baud) (lines : BitVec 32) (s : State) : Keeps s (startUp baud lines s) := by
  unfold startUp
  split
  · exact .of_held rfl rfl (freshBlocks_atZero s _ s.now)
  · exact .refl s

theorem holdInReset_keeps (s : State) : Keeps s (holdInReset s) := .of_plant (abandonFlash_plant s)

theorem releasePin_keeps (s : State) : Keeps s (releasePin s) := by
  unfold releasePin
  split
  · exact beginReset_keeps s
  · exact .refl s

theorem endFrame_keeps (s : State) : Keeps s (endFrame s) := by
  unfold endFrame
  split
  · split
    · exact beginReset_keeps s
    · exact .of_plant rfl
  · exact .of_plant rfl

/-! ### Every command -/

theorem exec_transmitEnd_keeps {s t : State} (h : exec .transmitEnd s = .next t) : Keeps s t := by
  cases h
  split
  · exact endFrame_keeps s
  · exact .refl s

theorem exec_plantMillisecond_keeps {s t : State} (h : exec .plantMillisecond s = .next t) : Keeps s t := by
  change execPlantMillisecond s = .next t at h
  unfold execPlantMillisecond at h
  split at h
  · exact happens_keeps tick_keeps h
  · cases h
    exact .of_plant rfl
  · cases h
    exact .refl s

theorem exec_refillReadComplete_keeps {s t : State} (h : exec .refillReadComplete s = .next t) : Keeps s t := by
  change execRefillReadComplete s = .next t at h
  unfold execRefillReadComplete at h
  split at h
  · cases h
  · exact happens_keeps (fun s => .of_plant (completeRead_plant s)) h

/-- Whatever command is taken, a safe plant is kept. -/
theorem exec_keeps (i : Instr) {s t : State} (h : exec i s = .next t) : Keeps s t := by
  cases i with
  | resetPin => cases h; exact releasePin_keeps s
  | resetSequence baud lines => cases h; exact startUp_keeps baud lines s
  | resetPinHeldLow => cases h; exact holdInReset_keeps s
  | transmitEnd => exact exec_transmitEnd_keeps h
  | plantMillisecond => exact exec_plantMillisecond_keeps h
  | refillReadComplete => exact exec_refillReadComplete_keeps h
  | frameComplete kind tag payload => exact happens_keeps (receiveFrame_keeps kind tag payload) h
  | controlLinkByte b => exact happens_keeps (receiveByte_keeps b) h
  | frameTimeout => exact happens_keeps (f := State.hunt) (fun _ => .of_plant rfl) h
  | flashInterfaceHold => exact happens_keeps (fun s => .of_plant (holdInterface_plant s)) h
  | flashOperationDone ok => exact happens_keeps (fun s => .of_plant (reportFlash_plant ok s)) h
  | flashTimeout => exact happens_keeps (fun s => .of_plant (expireFlash_plant s)) h
  | stepTimeout => exact happens_keeps expireStep_keeps h
  | manifoldUpdate m => exact happens_keeps (fun s => .of_plant (updateManifold_plant m s)) h
  | pollSlot => exact happens_keeps startSlot_keeps h
  | driveReply bytes => exact happens_keeps (receiveReply_keeps bytes) h
  | pollMiss => exact happens_keeps missReply_keeps h
  | startTimeout p => exact happens_keeps (expireStart_keeps p) h
  | gateEnd => exact happens_keeps endGate_keeps h
  | trimStep => exact happens_keeps (fun s => .of_plant (stepTrims_plant s)) h
  | lightingFrame => exact happens_keeps (fun s => .of_plant (sendLightingFrame_plant s)) h
  | outputFrame => exact happens_keeps outputFrame_keeps h
  | stopFadeEnd i => exact happens_keeps (endStopFade_keeps i) h
  | envelopeEvent => exact happens_keeps (fun s => .of_plant (takeEnvelope_plant s)) h
  | inputSample lines => exact happens_keeps (f := sampleInputs lines) (fun _ => .of_plant rfl) h
  | conditionSample c => exact happens_keeps (sampleCondition_keeps c) h
  | pwmPeriod => exact happens_keeps startPeriod_keeps h
  | _ => exact request_keeps (owner_keeps _) ((exec_of_request rfl s).symm.trans h)

theorem step_keeps {s t : State} (h : step s = .next t) : Keeps s t := by
  unfold step at h
  split at h
  · cases h
    exact .refl s
  · exact (exec_keeps _ h).congr_left rfl

/-- Settles O13: every step is a command or idles, and every command keeps both invariants. -/
theorem everyStepKeepsThePlantSafe : Obligations.EveryStepKeepsThePlantSafe :=
  ⟨fun _ _ hs h => (step_keeps h).safe hs, fun _ _ hs h => (step_keeps h).stopped hs⟩

end Sys2Proof.Machine.PlantSafety
end

section
/-! SUPPORT. The Output Matrix: its requests, the PWM period and what a line shows (R177, R181 to R184). -/

namespace Sys2Proof.Machine.OutputMatrix
open JetChannels PlantSafety

/-! ### Operand forms (R181) -/

theorem bitOf_of_le_one {b : Byte} (h : b.toNat ≤ 1) : bitOf b = some (decide (b = 1#8)) := by
  revert b
  decide

theorem bitOf_of_ge_two {b : Byte} (h : ¬ b.toNat ≤ 1) : bitOf b = none := by
  revert b
  decide

theorem outputCfgOf_eq (a : OutputArgs) : outputCfgOf a =
    match outputSourceOf a.source a.sourceArg with
    | some source =>
      if a.invert.toNat ≤ 1 ∧ a.safe.toNat ≤ 1 then
        some { source := source, invert := decide (a.invert = 1#8), safeLevel := decide (a.safe = 1#8) }
      else none
    | none => none := by
  unfold outputCfgOf
  cases outputSourceOf a.source a.sourceArg with
  | none => rfl
  | some source =>
    by_cases hinvert : a.invert.toNat ≤ 1
    · by_cases hsafe : a.safe.toNat ≤ 1
      · simp [bitOf_of_le_one hinvert, bitOf_of_le_one hsafe, hinvert, hsafe]
      · simp [bitOf_of_ge_two hsafe, hsafe]
    · simp [bitOf_of_ge_two hinvert, hinvert]

/-! ### The requests, case by case (R181, R184) -/

section
variable {s : State} {tag : Byte}

theorem exec_outputConfig (a : OutputArgs) :
    exec (.outputConfig tag a) s = request 0x51#8 tag (configureOutput tag a) s := rfl

theorem configureOutput_live {a : OutputArgs} (h : s.out.mode = .live) :
    configureOutput tag a s = s.refuse 0x51#8 tag .notSafe := by
  simp [configureOutput, (State.live_iff s).2 h]

theorem configureOutput_badArgument {a : OutputArgs} (h : s.out.mode = .safe)
    (hbad : 64 ≤ a.line.toNat ∨ outputCfgOf a = none) :
    configureOutput tag a s = s.refuse 0x51#8 tag .badArgument := by
  rcases hbad with hline | hcfg
  · simp [configureOutput, State.live_eq_false h, below_ge hline]
  · cases hb : below 64 a.line <;> simp [configureOutput, State.live_eq_false h, hcfg, hb]

theorem configureOutput_taken {a : OutputArgs} (h : s.out.mode = .safe) {i : Fin 64} (hi : a.line.toNat = i.val)
    {cfg : OutputCfg} (hcfg : outputCfgOf a = some cfg) : configureOutput tag a s =
      ({ s with out := { s.out with lines := s.out.lines.set i cfg } } : State).ok 0x51#8 tag := by
  simp [configureOutput, State.live_eq_false h, below_lt i hi, hcfg]

theorem request_changes_out {kind : Byte} {owner : State → State} {o : OutputUnit} {status : Status}
    {fields : List Byte} (h : s.Ready)
    (ho : owner s.transmit.hunt = ({ s.transmit.hunt with out := o } : State).answer kind tag status fields) :
    request kind tag owner s = .next (({ s with out := o } : State).replied kind tag status fields) := by
  rw [request_of_ready h, ho]
  rfl

theorem exec_outputsSet (h : s.Ready) (mask : BitVec 64) : exec (.outputsSet tag mask) s =
    .next (({ s with out := { s.out with host := s.out.host ||| mask } } : State).replied 0x52#8 tag .ok
      (le 8 (s.out.host ||| mask).toNat)) :=
  request_changes_out h rfl

theorem exec_outputsClear (h : s.Ready) (mask : BitVec 64) : exec (.outputsClear tag mask) s =
    .next (({ s with out := { s.out with host := s.out.host &&& ~~~mask } } : State).replied 0x53#8 tag .ok
      (le 8 (s.out.host &&& ~~~mask).toNat)) :=
  request_changes_out h rfl

/-- A SET_PLANT to SAFE from LIVE is an entry to SAFE (R177, R178). -/
theorem exec_setPlant_safe (h : s.Ready) (hlive : s.out.mode = .live) : exec (.setPlant tag 0#8) s =
    .next (s.transmit.hunt.enterSafe.answer 0x50#8 tag .ok [0#8]).transmit := by
  have hmode : s.transmit.hunt.live = true := (State.live_iff s).2 hlive
  have howner : setPlant tag 0#8 s.transmit.hunt = s.transmit.hunt.enterSafe.answer 0x50#8 tag .ok [0#8] := by
    simp [setPlant, modeOf, State.setMode, hmode, PlantMode.code, u8, le]
  calc exec (.setPlant tag 0#8) s = .next (setPlant tag 0#8 s.transmit.hunt).transmit := request_of_ready h _ _ _
    _ = _ := by rw [howner]

end

/-! ### The PWM period (R183) -/

/-- The state after the start of a PWM period. -/
def periodStarted (s : State) : State :=
  { s with out := { s.out with duty := s.jets.channels.map (·.live.opening), pwmOn := decide (s.out.mode = .live) },
           link := s.link.choose }

theorem exec_pwmPeriod {s : State} (hp : s.phase = .running) : exec .pwmPeriod s = .next (periodStarted s) := by
  have hlive : s.transmit.live = decide (s.out.mode = .live) := rfl
  calc exec .pwmPeriod s = .next (startPeriod s.transmit).transmit := happens_of_running hp _
    _ = .next (periodStarted s) := by
      simp only [startPeriod, hlive]
      simp [periodStarted, State.transmit]

/-! ### What a line shows (R182, R183) -/

theorem tripAny_iff (s : State) : s.tripAny = true ↔
    ∃ r ∈ s.trip.reactions.cells, s.isActive r = true ∧ r.cfg.kind ≠ .noticeOnly := by
  simp only [State.tripAny, List.any_eq_true, State.mem_activeKinds]
  constructor
  · rintro ⟨k, ⟨r, hr, ha, rfl⟩, hk⟩
    exact ⟨r, hr, ha, by simpa using hk⟩
  · rintro ⟨r, hr, ha, hk⟩
    exact ⟨r.cfg.kind, ⟨r, hr, ha, rfl⟩, by simpa using hk⟩

theorem permit_eq (p : Pump) : p.permit =
    decide (p.live.state = .starting ∨ p.live.state = .running ∨ p.live.state = .stopping) := by
  unfold Pump.permit
  cases p.live.state <;> rfl

theorem not_idle_eq (s : State) : (!s.idle) = decide (s.seq.state ≠ .idle) := by
  unfold State.idle
  cases s.seq.state <;> rfl

theorem level_xor (b invert : Bool) : Shown.level (xor b invert) = if b = invert then .low else .high := by
  cases b <;> cases invert <;> rfl

section
variable {s : State}

theorem shown_of_not_running (h : s.phase ≠ .running) (i : Nat) (cfg : OutputCfg) : s.shown i cfg = .low := by
  unfold State.shown
  cases hp : s.phase with
  | running => exact absurd hp h
  | heldLow => rfl
  | resetting => rfl

theorem shown_in_safe (hp : s.phase = .running) (h : s.out.mode = .safe) (i : Nat) (cfg : OutputCfg) :
    s.shown i cfg = if cfg.safeLevel then .high else .low := by
  simp [State.shown, hp, State.live_eq_false h, Shown.level]

theorem shown_of_opening (hp : s.phase = .running) (h : s.out.mode = .live) {i : Nat} {cfg : OutputCfg} {c : Fin 48}
    (hc : cfg.source = .channelOpening c) : s.shown i cfg = .pwm (s.dutyShown cfg c) := by
  simp [State.shown, hp, (State.live_iff s).2 h, hc]

/-- Every source but CHANNEL_OPENING shows its level, inverted where the line says so (R182). -/
theorem shown_of_level (hp : s.phase = .running) (h : s.out.mode = .live) {i : Nat} {cfg : OutputCfg}
    {source : OutputSource} {level : Bool} (hs : cfg.source = source) (hc : ∀ c, source ≠ .channelOpening c)
    (hl : s.steadyLevel i source = level) : s.shown i cfg = if level = cfg.invert then .low else .high := by
  subst hs hl
  rw [← level_xor]
  simp only [State.shown, hp, (State.live_iff s).2 h, if_true]

end

/-- Settles O60: each request by its cases, the period by the state it leaves, the entry to SAFE by the rules of
`enterSafe`, and the lines source by source. -/
theorem outputRequestsAndLines : Obligations.OutputRequestsAndLines := by
  refine ⟨⟨outputCfgOf_eq, fun s tag a hr => ?_, fun s tag mask hr => ⟨?_, ?_⟩, fun s hp => ?_⟩,
    fun s tag hr hlive => ?_, tripAny_iff, fun s i cfg => ⟨fun h => shown_of_not_running h i cfg,
      fun hp h => shown_in_safe hp h i cfg, fun hp h => ?_⟩⟩
  · rw [exec_outputConfig]
    exact ⟨fun h => request_refuses hr (configureOutput_live h),
      fun h hbad => request_refuses hr (configureOutput_badArgument h hbad),
      fun i cfg h hi hcfg => request_changes_out hr (configureOutput_taken (s := s.transmit.hunt) h hi hcfg)⟩
  · exact ⟨_, exec_outputsSet hr mask, fun i => (BitVec.getLsbD_or ..).trans (Bool.or_comm ..), rfl⟩
  · refine ⟨_, exec_outputsClear hr mask, fun i => ?_, rfl⟩
    show (s.out.host &&& ~~~mask).getLsbD i.val = _
    simp [Bool.and_comm]
  · exact ⟨periodStarted s, exec_pwmPeriod hp, rfl, fun c => Table.get_map _ _ c⟩
  · obtain ⟨hmode, hpwm⟩ := enterSafe_linesSafe s.transmit.hunt
    exact ⟨_, exec_setPlant_safe hr hlive, hmode, hpwm⟩
  · simp only
    cases hs : cfg.source with
    | channelOpening c =>
      rw [shown_of_opening hp h hs]
      exact ⟨fun hpwm => by simp [State.dutyShown, hpwm], fun hpwm => by simp [State.dutyShown, hpwm]⟩
    | pumpPermit p => exact shown_of_level hp h hs nofun (permit_eq _)
    | plantLive => exact shown_of_level hp h hs nofun ((State.live_iff s).2 h)
    | showActive => exact shown_of_level hp h hs nofun (not_idle_eq s)
    | tripAny => exact shown_of_level hp h hs nofun rfl
    | flag n => exact shown_of_level hp h hs nofun rfl
    | condition c => exact shown_of_level hp h hs nofun rfl
    | hostLevel => exact shown_of_level hp h hs nofun rfl
    | constLow => exact shown_of_level hp h hs nofun rfl
    | constHigh => exact shown_of_level hp h hs nofun rfl

end Sys2Proof.Machine.OutputMatrix
end
